-- ==== Sys2Proof/Word.lean ====
section
/-! DEFINITION. The two word types of the core (R10): bytes (V registers, timers, memory) and 16-bit words (I, PC,
stack entries, the instruction word). -/

namespace Sys2Proof

/-- 8 bits: a V register, a timer, a memory byte (R10). -/
abbrev Byte := BitVec 8

/-- 16 bits: I, PC, a stack entry, an instruction word (R10). -/
abbrev Word := BitVec 16

end Sys2Proof
end

