-- ==== Sys2Proof/Config.lean ====
section
/-! DEFINITION. What is fixed when the machine is constructed (R8, R9, R35), and the FREE VALUES of the spec: constants
with no body, so that nothing can be proved of what they are. -/

namespace Sys2Proof

/-- KEY_INDEX_POLICY: what EX9E and EXA1 do when VX > 0xF (R193). -/
inductive KeyIndexPolicy where
  /-- Fatal(KeyIndexOutOfRange, VX), the default. -/
  | fatal
  /-- The key is VX AND 0x0F. -/
  | maskLowNibble
  deriving DecidableEq, Repr

/-- The configuration record cfg (R35): chosen at construction, never changed by an instruction. KEY_SELECT, the one
parameter of R35 that is a function, is `Config.keySelect` below, since State is plain data (log 2). -/
structure Config where
  /-- JUMP_OFFSET_USES_VX (R8): BNNN adds VX instead of V0. -/
  jumpOffsetUsesVX : Bool
  /-- SHIFT_COPIES_VY (R8): 8XY6 and 8XYE copy VY into VX first. -/
  shiftCopiesVY : Bool
  /-- LOADSTORE_INCREMENTS_I (R8): FX55 and FX65 advance I by X + 1. -/
  loadStoreIncrementsI : Bool
  /-- STACK_LIMIT (R9, R29): none is unbounded. -/
  stackLimit : Option Nat
  /-- STRICT_5_9 (R9, R92): 5XYN and 9XYN with N ≠ 0 are unknown. -/
  strict59 : Bool
  /-- KEY_INDEX_POLICY (R9, R193). -/
  keyIndexPolicy : KeyIndexPolicy
  /-- FONT (R9, R52): 16 glyphs of 5 bytes; it is read at construction only. -/
  font : Vector Byte 80
  deriving DecidableEq, Repr

/-- The values R9, R37 and R52 call legal: STACK_LIMIT is none or at least 1, and glyph 0 of FONT is the one the source
gives. -/
def Config.legal (c : Config) : Bool :=
  c.stackLimit != some 0 && c.font.toList.take 5 == [0xF0#8, 0x90#8, 0x90#8, 0x90#8, 0xF0#8]

/-- FREE VALUE (log 1): the key-down sample of the n-th step whose inputs the host has not fixed; bit k = key k is down
(R43, R194). -/
opaque Config.freeKeys : Nat → BitVec 16

/-- FREE VALUE (log 1): the 8-bit random draw of the n-th step whose inputs the host has not fixed (R43, R123). -/
opaque Config.freeRnd : Nat → Byte

/-- FREE VALUE (log 2): KEY_SELECT of R9 and R192 on a set of down keys; `Machine.selectKey` takes its value only where
that is a down key and more than one key is down. -/
opaque Config.keySelect : BitVec 16 → BitVec 4

end Sys2Proof
end

