-- ==== Sys2Proof/Machine/Defaults.lean ====
section
/-! DEFINITION. The construction parameters' defaults (R8, R9) and the fixed addresses (R7): the default FONT table
(R69) and the default configuration. -/

namespace Sys2Proof.Machine

/-- MEM_SIZE (R7): addresses 0x000..0xFFF. -/
abbrev memSize : Nat := 0x1000

/-- FONT_BASE (R7, R51). -/
abbrev fontBase : Nat := 0x050

/-- FONT_GLYPHS x 5 (R7, R52). -/
abbrev fontSize : Nat := 80

/-- PROG_BASE, the address the ROM is loaded at and the reset PC (R7, R51). -/
abbrev progBase : Nat := 0x200

/-- ROM_MAX (R7, R53). -/
abbrev romMax : Nat := 0xE00

/-- The default FONT table, glyph 0 first (R69). Glyph 0 is the source's; glyphs 1-F are the spec's default
(log 7). -/
def defaultFontBytes : List Byte :=
  [0xF0#8, 0x90#8, 0x90#8, 0x90#8, 0xF0#8] ++ [0x20#8, 0x60#8, 0x20#8, 0x20#8, 0x70#8] ++
  [0xF0#8, 0x10#8, 0xF0#8, 0x80#8, 0xF0#8] ++ [0xF0#8, 0x10#8, 0xF0#8, 0x10#8, 0xF0#8] ++
  [0x90#8, 0x90#8, 0xF0#8, 0x10#8, 0x10#8] ++ [0xF0#8, 0x80#8, 0xF0#8, 0x10#8, 0xF0#8] ++
  [0xF0#8, 0x80#8, 0xF0#8, 0x90#8, 0xF0#8] ++ [0xF0#8, 0x10#8, 0x20#8, 0x40#8, 0x40#8] ++
  [0xF0#8, 0x90#8, 0xF0#8, 0x90#8, 0xF0#8] ++ [0xF0#8, 0x90#8, 0xF0#8, 0x10#8, 0xF0#8] ++
  [0xF0#8, 0x90#8, 0xF0#8, 0x90#8, 0x90#8] ++ [0xE0#8, 0x90#8, 0xE0#8, 0x90#8, 0xE0#8] ++
  [0xF0#8, 0x80#8, 0x80#8, 0x80#8, 0xF0#8] ++ [0xE0#8, 0x90#8, 0x90#8, 0x90#8, 0xE0#8] ++
  [0xF0#8, 0x80#8, 0xF0#8, 0x80#8, 0xF0#8] ++ [0xF0#8, 0x80#8, 0xF0#8, 0x80#8, 0x80#8]

/-- FONT's default as the 80 bytes of cfg (R9). -/
def defaultFont : Vector Byte 80 := ⟨defaultFontBytes.toArray, rfl⟩

/-- Every parameter at its default (R8, R9). -/
def defaultConfig : Config where
  jumpOffsetUsesVX := false
  shiftCopiesVY := false
  loadStoreIncrementsI := false
  stackLimit := none
  strict59 := false
  keyIndexPolicy := .fatal
  font := defaultFont

/-- The byte memory holds at address `a` right after construction with the default FONT and an empty ROM (R51): the font
table at 0x050..0x09F, the fill value 0 elsewhere. This is what an address that memory does not list reads as
(log 8). -/
def resetByte (a : Nat) : Byte :=
  if fontBase ≤ a ∧ a < fontBase + fontSize then defaultFontBytes.getD (a - fontBase) 0#8 else 0#8

end Sys2Proof.Machine
end

