-- ==== Sys2Proof/Machine/State.lean ====
section
/-! DEFINITION. The machine's state (R20), the reasons a step stops, and the state right after reset (R243). Plain data:
no field holds a function. -/

namespace Sys2Proof.Machine

/-- The fatal conditions of R203. A fatal condition ends the step with no successor state (R75, R204), which is the
spec's own outcome: stopping there is safe. `pc0` is the address of the instruction that raised it. -/
inductive Fault where
  /-- Code 2: an effective address ≥ 0x1000, raised by fetch, DXYN, FX33, FX55 and FX65 (R205). Safe. -/
  | addressOutOfRange (addr : Nat) (pc0 : Word)
  /-- Code 3: 00EE on an empty stack (R206). Safe. -/
  | stackUnderflow (pc0 : Word)
  /-- Code 4: 2NNN on a stack that already holds STACK_LIMIT entries (R207). Safe. -/
  | stackOverflow (pc0 : Word)
  /-- Code 5: EX9E or EXA1 with VX > 0xF under KEY_INDEX_POLICY = fatal (R208). Safe. -/
  | keyIndexOutOfRange (vx : Byte) (pc0 : Word)
  /-- Code 6: construction with a ROM of more than 3584 bytes (R209); no step raises it. Safe. -/
  | romTooLarge (len : Nat)
  deriving DecidableEq, Repr

/-- Every instruction has its meaning, so no step is refused. -/
inductive Refusal where
  /-- Only `exec` may answer it, for an instruction that has no meaning yet (there is none). Safe. -/
  | notModelled (mnemonic : String)
  deriving DecidableEq, Repr

/-- The run status (R36). -/
inductive Status where
  | running
  /-- A stop request was honoured (R46). -/
  | stopped
  /-- A fatal condition ended the run (R204), or the ROM was too large at construction (R242). -/
  | fatal (condition : Fault)
  deriving DecidableEq, Repr

/-- What the host supplies for one step (R43): the key-down sample (bit k = key k is down) and the random draw. -/
structure StepInput where
  keys : BitVec 16
  rnd : Byte
  deriving DecidableEq, Repr

/-- The report Unknown(w, pc0) of R201: R203's code 1, UnknownInstruction, with the info recorded for it. Not fatal. -/
structure UnknownReport where
  word : Word
  pc0 : Word
  deriving DecidableEq, Repr

/-- Memory (R33, R50): the bytes that differ from `resetByte`, by address, addresses strictly rising (log 8). -/
abbrev Memory := List Host.Cell

/-- The display (R32): row y is entry y, and pixel D[x, y] is bit x of that row (log 16). -/
abbrev Display := Vector (BitVec 64) 32

/-- The state of R20, the ports of R45, and two fields of the model's own (`inputs`, `draws`; log 1). -/
structure State where
  /-- V0..VF (R21); V[15] is VF, which is also the flag (R22). -/
  v : Vector Byte 16
  /-- I (R26). -/
  i : Word
  /-- PC (R27). -/
  pc : Word
  /-- The call stack S, top at the end (R11, R29). -/
  stack : List Word
  /-- DT, the delay timer (R30). -/
  dt : Byte
  /-- ST, the sound timer (R31). -/
  st : Byte
  /-- Disp (R32). -/
  disp : Display
  /-- Mem (R33). -/
  mem : Memory
  /-- status (R36). -/
  status : Status
  /-- diag_word (R34): the last word fetched; no instruction reads it. -/
  diagWord : Word
  /-- cfg (R35), read-only. -/
  cfg : Config
  /-- The port keys[15:0] (R45): the sample the current step reads (R194). -/
  keys : BitVec 16
  /-- The port rnd[7:0] (R45): the current step's draw. -/
  rnd : Byte
  /-- The output sound_pulse of the last step (R44, R212). -/
  soundPulse : Bool
  /-- The output unknown_report of the last step (R44, R201). -/
  unknownReport : Option UnknownReport
  /-- Model's own (log 1): inputs the host has already fixed for the coming steps, the next step's first. -/
  inputs : List StepInput
  /-- Model's own (log 1): how many steps have taken free inputs. -/
  draws : Nat
  deriving DecidableEq, Repr

/-- The machine right after reset (R243) with the default configuration and an empty ROM, which R242 accepts. Where the
spec gives no value the log names the one below: `v` (log 3), `i` (log 4), `diagWord` (log 5), `cfg` (log 6), `keys`, `rnd`,
`inputs`, `draws` (log 1). `construct` (Machine/Ports.lean) takes any configuration, INIT_V, INIT_I and ROM. -/
def State.reset : State where
  v := Vector.replicate 16 0#8
  i := 0x0000#16
  pc := 0x200#16
  stack := []
  dt := 0#8
  st := 0#8
  disp := Vector.replicate 32 0#64
  mem := []
  status := .running
  diagWord := 0x0000#16
  cfg := defaultConfig
  keys := 0#16
  rnd := 0#8
  soundPulse := false
  unknownReport := none
  inputs := []
  draws := 0

end Sys2Proof.Machine
end

