-- ==== Sys2Proof/Syntax.lean ====
section
/-! DEFINITION. The instructions: one constructor per row of spec/opcode_table.json, in the table's order (R90).
Operands are the instruction fields of R14: register numbers X and Y (4 bits), NN (8 bits), NNN (12 bits), N (4 bits). -/

namespace Sys2Proof

/-- A register number, X or Y: V0..VF; always in range, since the field has 4 bits (R21, R72). -/
abbrev RegIx := BitVec 4

/-- The low nibble N (R14). -/
abbrev Nibble := BitVec 4

/-- The low byte NN (R14). -/
abbrev Imm8 := BitVec 8

/-- The 12-bit field NNN (R14). -/
abbrev Imm12 := BitVec 12

/-- The 34 instructions of R90. A word that matches none of them is unknown-instruction (R201), which is no
instruction: the decoder rejects it by name and the step reports it. -/
inductive Instr where
  /-- `00E0`, R170. -/
  | clear
  /-- `00EE` Return, R100. -/
  | ret
  /-- `1NNN`, R101. -/
  | jump (nnn : Imm12)
  /-- `2NNN`, R102. -/
  | callSubroutine (nnn : Imm12)
  /-- `3XNN`, R103. -/
  | skipIfEqual (x : RegIx) (nn : Imm8)
  /-- `4XNN`, R104. -/
  | skipIfNotEqual (x : RegIx) (nn : Imm8)
  /-- `5XYN`, R105; N is not examined unless STRICT_5_9 (R92), and is kept so that the word can be rebuilt. -/
  | skipIfRegEqual (x y : RegIx) (n : Nibble)
  /-- `6XNN`, R120. -/
  | setRegister (x : RegIx) (nn : Imm8)
  /-- `7XNN`, R121. -/
  | addRegister (x : RegIx) (nn : Imm8)
  /-- `8XY0`, R130. -/
  | copy (x y : RegIx)
  /-- `8XY1` Or, R131. -/
  | bitOr (x y : RegIx)
  /-- `8XY2` And, R132. -/
  | bitAnd (x y : RegIx)
  /-- `8XY3` Xor, R133. -/
  | bitXor (x y : RegIx)
  /-- `8XY4`, R134. -/
  | add (x y : RegIx)
  /-- `8XY5`, R135. -/
  | subtract (x y : RegIx)
  /-- `8XY6`, R136. -/
  | shiftRight (x y : RegIx)
  /-- `8XY7`, R137. -/
  | subtractReverse (x y : RegIx)
  /-- `8XYE`, R138. -/
  | shiftLeft (x y : RegIx)
  /-- `9XYN`, R106; N as in `skipIfRegEqual`. -/
  | skipIfRegNotEqual (x y : RegIx) (n : Nibble)
  /-- `ANNN`, R122. -/
  | setIndex (nnn : Imm12)
  /-- `BNNN`, R107. -/
  | jumpWithOffset (nnn : Imm12)
  /-- `CXNN`, R123. -/
  | random (x : RegIx) (nn : Imm8)
  /-- `DXYN`, R171. -/
  | draw (x y : RegIx) (n : Nibble)
  /-- `EX9E`, R190. -/
  | skipIfKeyPressed (x : RegIx)
  /-- `EXA1`, R191. -/
  | skipIfKeyNotPressed (x : RegIx)
  /-- `FX07`, R180. -/
  | readDelayIntoRegister (x : RegIx)
  /-- `FX0A`, R192. -/
  | blockingKeyWait (x : RegIx)
  /-- `FX15`, R181. -/
  | writeRegisterIntoDelay (x : RegIx)
  /-- `FX18`, R182. -/
  | writeRegisterIntoSound (x : RegIx)
  /-- `FX1E`, R150. -/
  | addIndex (x : RegIx)
  /-- `FX29`, R151. -/
  | fontCharacterAddress (x : RegIx)
  /-- `FX33`, R152. -/
  | bcd (x : RegIx)
  /-- `FX55`, R154. -/
  | storeRegisters (x : RegIx)
  /-- `FX65`, R155. -/
  | loadRegisters (x : RegIx)
  deriving DecidableEq, Repr

end Sys2Proof
end

