-- ==== Sys2Proof/Machine/Ops.lean ====
section
/-! DEFINITION. The named operations on the state: registers, PC and stack, memory, display, raising a fatal condition,
the timer countdown, and the inputs of a step. Every instruction's meaning is written over these. -/

namespace Sys2Proof.Machine

/-! ## Registers (R11, R21) -/

/-- VF, the register that is also the flag (R22). -/
def vf : RegIx := 0xF#4

/-- `V[x]` (R11). -/
def State.reg (s : State) (x : RegIx) : Byte := s.v[x.toNat]'x.isLt

/-- `V[x] <- b` (R11). No register is hardwired (R21). -/
def State.setReg (s : State) (x : RegIx) (b : Byte) : State := { s with v := s.v.set x.toNat b x.isLt }

/-- `V[0xF] <- b` as the flag (R22). -/
def State.setVF (s : State) (b : Byte) : State := s.setReg vf b

/-- All of V0..VF at once. -/
def State.setV (s : State) (v : Vector Byte 16) : State := { s with v := v }

/-- `I <- w` (R26). -/
def State.setI (s : State) (w : Word) : State := { s with i := w }

/-- `PC <- w` (R27). -/
def State.setPC (s : State) (w : Word) : State := { s with pc := w }

/-- `DT <- b` (R30). -/
def State.setDT (s : State) (b : Byte) : State := { s with dt := b }

/-- `ST <- b` (R31). -/
def State.setST (s : State) (b : Byte) : State := { s with st := b }

/-- Replace the call stack (R29). -/
def State.setStack (s : State) (l : List Word) : State := { s with stack := l }

/-- Replace the display (R32). -/
def State.setDisp (s : State) (d : Display) : State := { s with disp := d }

/-- Replace the memory (R33). -/
def State.setMem (s : State) (m : Memory) : State := { s with mem := m }

/-- Replace the run status (R36). -/
def State.setStatus (s : State) (r : Status) : State := { s with status := r }

/-! ## Program counter and stack (R27, R29, R74, R108) -/

/-- pc0, the address of the instruction being executed: PC has already advanced past it (R14, R74; log 11). -/
def State.pc0 (s : State) : Word := s.pc - 2#16

/-- A skip: PC + 2 once more when the condition holds (R108). -/
def State.skipIf (s : State) (cond : Bool) : State := if cond then s.setPC (s.pc + 2#16) else s

/-- `push(S, w)`: append (R11). -/
def State.push (s : State) (w : Word) : State := s.setStack (s.stack ++ [w])

/-! ## Raising a fatal condition (R13, R75, R204, R221)

The core's only exception: it saves nothing, changes no mode and transfers control nowhere; the step ends with no
successor state. -/

/-- `raise Fatal(kind, info)` (R13). -/
def raiseFatal (f : Fault) : Host.Outcome State Fault Refusal := .fault f

/-- The outcome of a computation that may raise a fatal condition on its way to a next state. -/
def outcomeOf : Except Fault State → Host.Outcome State Fault Refusal
  | .ok s => .next s
  | .error f => raiseFatal f

/-! ## Memory (R50, R51, R55) -/

/-- The byte listed for an address. -/
def Memory.lookup : Memory → Nat → Option Byte
  | [], _ => none
  | c :: m, a => if c.1 = a then some c.2 else Memory.lookup m a

/-- One byte: the listed one, else what memory holds there after reset (R51). -/
def Memory.read (m : Memory) (a : Nat) : Byte := (Memory.lookup m a).getD (resetByte a)

/-- The list without an address. -/
def Memory.erase (m : Memory) (a : Nat) : Memory := m.filter fun c => c.1 != a

/-- Insert a cell before the first larger address. -/
def Memory.insert : Memory → Host.Cell → Memory
  | [], c => [c]
  | d :: m, c => if c.1 < d.1 then c :: d :: m else d :: Memory.insert m c

/-- Store one byte, keeping the canonical form: a byte equal to the reset contents is not listed. -/
def Memory.write (m : Memory) (a : Nat) (b : Byte) : Memory :=
  if b = resetByte a then Memory.erase m a else Memory.insert (Memory.erase m a) (a, b)

/-- Store bytes at rising addresses. -/
def Memory.writeList (m : Memory) (a : Nat) : List Byte → Memory
  | [] => m
  | b :: bs => Memory.writeList (Memory.write m a b) (a + 1) bs

/-- The canonical form: addresses strictly rising and inside the 4096 bytes (R50), no entry equal to what an unlisted
address reads as. -/
abbrev Memory.wf (m : Memory) : Prop :=
  m.Pairwise (fun c d => c.1 < d.1) ∧ ∀ c ∈ m, c.1 < memSize ∧ c.2 ≠ resetByte c.1

/-- The state's byte at an address, with no check: what an observer of memory sees. -/
def State.peek (s : State) (a : Nat) : Byte := Memory.read s.mem a

/-- `MemRead(addr, 1)` with its bounds check (R12, R55). The address is an unbounded natural. -/
def loadByte (m : Memory) (pc0 : Word) (addr : Nat) : Except Fault Byte :=
  if memSize ≤ addr then .error (.addressOutOfRange addr pc0) else .ok (Memory.read m addr)

/-- `MemWrite(addr, 1, b)` with its bounds check (R12, R55). -/
def storeByte (m : Memory) (pc0 : Word) (addr : Nat) (b : Byte) : Except Fault Memory :=
  if memSize ≤ addr then .error (.addressOutOfRange addr pc0) else .ok (Memory.write m addr b)

/-- MemWrite of each byte at rising addresses; the first one out of range ends the step (R152, R154). -/
def storeBlock (m : Memory) (pc0 : Word) (addr : Nat) : List Byte → Except Fault Memory
  | [] => .ok m
  | b :: bs =>
    match storeByte m pc0 addr b with
    | .error f => .error f
    | .ok m' => storeBlock m' pc0 (addr + 1) bs

/-- MemRead of `n` bytes at rising addresses; the first one out of range ends the step (R155). -/
def loadBlock (m : Memory) (pc0 : Word) (addr : Nat) : Nat → Except Fault (List Byte)
  | 0 => .ok []
  | n + 1 =>
    match loadByte m pc0 addr with
    | .error f => .error f
    | .ok b =>
      match loadBlock m pc0 (addr + 1) n with
      | .error f => .error f
      | .ok bs => .ok (b :: bs)

/-- Write bytes into V[k], V[k+1], ... (R155). -/
def writeRegs (v : Vector Byte 16) (k : Nat) : List Byte → Vector Byte 16
  | [] => v
  | b :: bs => writeRegs (v.setIfInBounds k b) (k + 1) bs

/-! ## Display (R32, R171) -/

/-- D[x, y]; false off the grid. -/
def Display.pixel (d : Display) (x y : Nat) : Bool := if h : y < 32 then d[y].getLsbD x else false

/-- D[x, y] of the state (R32). -/
def State.pixel (s : State) (x y : Nat) : Bool := Display.pixel s.disp x y

/-- One sprite byte placed at column x0 of a row: bit 7 is the leftmost pixel, and the pixels past column 63 are clipped
(R171). -/
def spriteRow (x0 : Nat) (b : Byte) : BitVec 64 := b.reverse.setWidth 64 <<< x0

/-- Rows r, r+1, ... of a sprite at `base` (at most `rows` of them): a row past the bottom edge ends the blit before its
byte is read; else its byte is read, XORed into display row y0 + r, and a lit pixel turned off is a collision (R171). -/
def drawRows (m : Memory) (pc0 : Word) (base x0 y0 : Nat) :
    (rows r : Nat) → Display → Bool → Except Fault (Display × Bool)
  | 0, _, d, hit => .ok (d, hit)
  | rows + 1, r, d, hit =>
    if h : y0 + r < 32 then
      match loadByte m pc0 (base + r) with
      | .error f => .error f
      | .ok b =>
        drawRows m pc0 base x0 y0 rows (r + 1) (d.set (y0 + r) (d[y0 + r] ^^^ spriteRow x0 b))
          (hit || (d[y0 + r] &&& spriteRow x0 b) != 0#64)
    else .ok (d, hit)

/-! ## Keys (R13, R192-R194) -/

/-- `Key(k)`: the sample's bit k (R13, R194). -/
def State.keyDown (s : State) (k : BitVec 4) : Bool := s.keys.getLsbD k.toNat

/-- `AnyKey()` (R13). -/
def State.anyKey (s : State) : Bool := s.keys != 0#16

/-- The lowest-numbered key of a sample; 0 when none is down. -/
def lowestKey (keys : BitVec 16) : BitVec 4 :=
  BitVec.ofNat 4 (((List.range 16).find? fun k => keys.getLsbD k).getD 0)

/-- KEY_SELECT on the set of down keys (R192): the only key where one is down; where several are, one of them, and which
is a free value (log 2). -/
def selectKey (keys : BitVec 16) : BitVec 4 :=
  if keys = 1#16 <<< (lowestKey keys).toNat then lowestKey keys
  else if keys.getLsbD (Config.keySelect keys).toNat then Config.keySelect keys
  else lowestKey keys

/-! ## The timer countdown (R211, R212) -/

/-- `if t > 0 then t - 1`. -/
def countDown (t : Byte) : Byte := if t = 0#8 then 0#8 else t - 1#8

/-- TimerTick (R211): the pulse looks at ST before the decrement (R212). -/
def State.timerTick (s : State) : State :=
  { s with soundPulse := s.st != 0#8, dt := countDown s.dt, st := countDown s.st }

/-! ## The step's inputs and outputs (R43, R44, R74; log 1) -/

/-- Take the step's key sample and draw: those the host has fixed, else free values. -/
def State.sampleInputs (s : State) : State :=
  match s.inputs with
  | [] => { s with keys := Config.freeKeys s.draws, rnd := Config.freeRnd s.draws, draws := s.draws + 1 }
  | inp :: rest => { s with keys := inp.keys, rnd := inp.rnd, inputs := rest }

/-- After a fetch: diag_word <- w, PC <- pc0 + 2, unknown_report <- none (R74). -/
def State.fetched (s : State) (w : Word) : State :=
  { s with diagWord := w, pc := s.pc + 2#16, unknownReport := none }

/-- `report Unknown(w, pc0)` (R201). -/
def State.reportUnknown (s : State) (w pc0 : Word) : State :=
  { s with unknownReport := some { word := w, pc0 := pc0 } }

end Sys2Proof.Machine
end

