-- ==== Sys2Proof/Machine/Flags.lean ====
section
/-! DEFINITION. VF, the only flag (R22, R25): what each writer sets it to, and the order of the writes (R140). -/

namespace Sys2Proof.Machine

/-- A flag as the byte VF holds. -/
def flagByte (f : Bool) : Byte := if f then 1#8 else 0#8

/-- 8XY4: the 9-bit sum exceeds 255 (R134). -/
def carryOut (a b : Byte) : Bool := decide (255 < a.toNat + b.toNat)

/-- 8XY5, 8XY7: minuend ≥ subtrahend (R135, R137). -/
def noBorrow (minuend subtrahend : Byte) : Bool := decide (subtrahend.toNat ≤ minuend.toNat)

/-- 8XY6: the least significant bit (R136). -/
def shiftedOutRight (b : Byte) : Bool := b.getLsbD 0

/-- 8XYE: the most significant bit (R138). -/
def shiftedOutLeft (b : Byte) : Bool := b.getLsbD 7

/-- FX1E: I + VX exceeds 0xFFF (R150). -/
def indexOverflow (i : Word) (b : Byte) : Bool := decide (0xFFF < i.toNat + b.toNat)

/-- The result into VX, then the flag into VF, which is the write observed when X = F (R22, R140). -/
def State.writeResultThenFlag (s : State) (x : RegIx) (result : Byte) (flag : Bool) : State :=
  (s.setReg x result).setVF (flagByte flag)

end Sys2Proof.Machine
end

