-- ==== Sys2Proof/WellFormed.lean ====
section
/-! DEFINITION. Which terms of Instr are instructions under a configuration: all, but for the low nibble of 5XYN and 9XYN
under STRICT_5_9 (R92). Every other field is exactly as wide as its type. -/

namespace Sys2Proof

/-- The low nibble of 5XYN and 9XYN: any value, but 0 only under STRICT_5_9 (R92). -/
def lowNibbleAllowed (strict : Bool) (n : Nibble) : Bool :=
  !strict || n == 0#4

/-- `strict` is cfg.STRICT_5_9. -/
def Instr.wellFormed (strict : Bool) : Instr → Bool
  | .clear => true
  | .ret => true
  | .jump _ => true
  | .callSubroutine _ => true
  | .skipIfEqual _ _ => true
  | .skipIfNotEqual _ _ => true
  | .skipIfRegEqual _ _ n => lowNibbleAllowed strict n
  | .setRegister _ _ => true
  | .addRegister _ _ => true
  | .copy _ _ => true
  | .bitOr _ _ => true
  | .bitAnd _ _ => true
  | .bitXor _ _ => true
  | .add _ _ => true
  | .subtract _ _ => true
  | .shiftRight _ _ => true
  | .subtractReverse _ _ => true
  | .shiftLeft _ _ => true
  | .skipIfRegNotEqual _ _ n => lowNibbleAllowed strict n
  | .setIndex _ => true
  | .jumpWithOffset _ => true
  | .random _ _ => true
  | .draw _ _ _ => true
  | .skipIfKeyPressed _ => true
  | .skipIfKeyNotPressed _ => true
  | .readDelayIntoRegister _ => true
  | .blockingKeyWait _ => true
  | .writeRegisterIntoDelay _ => true
  | .writeRegisterIntoSound _ => true
  | .addIndex _ => true
  | .fontCharacterAddress _ => true
  | .bcd _ => true
  | .storeRegisters _ => true
  | .loadRegisters _ => true

end Sys2Proof
end

