-- ==== Sys2Proof/Decode.lean ====
section
/-! DEFINITION. The decoder (R71-R73, R85-R92), total on all words and on any bytes, which rejects by name; and after it
the encoder, written from the formats of R77-R83 and the match column of R90. -/

namespace Sys2Proof

/-! ## Bytes and fields -/

/-- The high byte of a word; it lies at the lower address (R56). -/
def hiByte (w : Word) : Byte := w.extractLsb' 8 8

/-- The low byte of a word. -/
def loByte (w : Word) : Byte := w.extractLsb' 0 8

/-- The big-endian word of two bytes, the one at the lower address first (R56, R70). -/
def wordOfBytes (hi lo : Byte) : Word := hi ++ lo

/-- F = w[15:12], the class (R14). -/
def fieldF (w : Word) : BitVec 4 := w.extractLsb' 12 4

/-- X = w[11:8] (R14). -/
def fieldX (w : Word) : RegIx := w.extractLsb' 8 4

/-- Y = w[7:4] (R14). -/
def fieldY (w : Word) : RegIx := w.extractLsb' 4 4

/-- N = w[3:0] (R14). -/
def fieldN (w : Word) : Nibble := w.extractLsb' 0 4

/-- NN = w[7:0] (R14). -/
def fieldNN (w : Word) : Imm8 := w.extractLsb' 0 8

/-- NNN = w[11:0] (R14). -/
def fieldNNN (w : Word) : Imm12 := w.extractLsb' 0 12

/-! ## The decoder -/

/-- Why bits are no instruction. All but `truncated` are the unknown-instruction condition of R73, which the step reports
and runs as a no-op (R201): safe, it is the spec's own outcome. -/
inductive DecodeReject where
  /-- Fewer than two bytes were given; a fetch never gives fewer (R70). -/
  | truncated
  /-- Class 0 and neither 00E0 nor 00EE (R86). -/
  | unknownClass0
  /-- Class 8 and N in 8..D or F (R87). -/
  | unknownClass8
  /-- Class E and NN neither 9E nor A1 (R88). -/
  | unknownClassE
  /-- Class F and NN none of the nine values of R89. -/
  | unknownClassF
  /-- Class 5 or 9 with N ≠ 0 under STRICT_5_9 (R92). -/
  | strictLowNibble
  deriving DecidableEq, Repr

/-- Class 0 (R86). -/
def decodeClass0 (w : Word) : Except DecodeReject Instr :=
  if fieldNNN w = 0x0E0#12 then .ok .clear
  else if fieldNNN w = 0x0EE#12 then .ok .ret
  else .error .unknownClass0

/-- Classes 5 and 9 (R73, R92). -/
def decodeClass59 (strict : Bool) (make : RegIx → RegIx → Nibble → Instr) (w : Word) : Except DecodeReject Instr :=
  if lowNibbleAllowed strict (fieldN w) then .ok (make (fieldX w) (fieldY w) (fieldN w))
  else .error .strictLowNibble

/-- Class 8 (R87). -/
def decodeClass8 (w : Word) : Except DecodeReject Instr :=
  match (fieldN w).toNat with
  | 0x0 => .ok (.copy (fieldX w) (fieldY w))
  | 0x1 => .ok (.bitOr (fieldX w) (fieldY w))
  | 0x2 => .ok (.bitAnd (fieldX w) (fieldY w))
  | 0x3 => .ok (.bitXor (fieldX w) (fieldY w))
  | 0x4 => .ok (.add (fieldX w) (fieldY w))
  | 0x5 => .ok (.subtract (fieldX w) (fieldY w))
  | 0x6 => .ok (.shiftRight (fieldX w) (fieldY w))
  | 0x7 => .ok (.subtractReverse (fieldX w) (fieldY w))
  | 0xE => .ok (.shiftLeft (fieldX w) (fieldY w))
  | _ => .error .unknownClass8

/-- Class E (R88). -/
def decodeClassE (w : Word) : Except DecodeReject Instr :=
  if fieldNN w = 0x9E#8 then .ok (.skipIfKeyPressed (fieldX w))
  else if fieldNN w = 0xA1#8 then .ok (.skipIfKeyNotPressed (fieldX w))
  else .error .unknownClassE

/-- Class F (R89). -/
def decodeClassF (w : Word) : Except DecodeReject Instr :=
  if fieldNN w = 0x07#8 then .ok (.readDelayIntoRegister (fieldX w))
  else if fieldNN w = 0x0A#8 then .ok (.blockingKeyWait (fieldX w))
  else if fieldNN w = 0x15#8 then .ok (.writeRegisterIntoDelay (fieldX w))
  else if fieldNN w = 0x18#8 then .ok (.writeRegisterIntoSound (fieldX w))
  else if fieldNN w = 0x1E#8 then .ok (.addIndex (fieldX w))
  else if fieldNN w = 0x29#8 then .ok (.fontCharacterAddress (fieldX w))
  else if fieldNN w = 0x33#8 then .ok (.bcd (fieldX w))
  else if fieldNN w = 0x55#8 then .ok (.storeRegisters (fieldX w))
  else if fieldNN w = 0x65#8 then .ok (.loadRegisters (fieldX w))
  else .error .unknownClassF

/-- The dispatcher's routing (R73, R85): on F, and for classes 0, 8, E and F on the secondary discriminant. `strict` is
cfg.STRICT_5_9. It reads nothing but the word (R98). -/
def decodeWord (strict : Bool) (w : Word) : Except DecodeReject Instr :=
  match (fieldF w).toNat with
  | 0x0 => decodeClass0 w
  | 0x1 => .ok (.jump (fieldNNN w))
  | 0x2 => .ok (.callSubroutine (fieldNNN w))
  | 0x3 => .ok (.skipIfEqual (fieldX w) (fieldNN w))
  | 0x4 => .ok (.skipIfNotEqual (fieldX w) (fieldNN w))
  | 0x5 => decodeClass59 strict .skipIfRegEqual w
  | 0x6 => .ok (.setRegister (fieldX w) (fieldNN w))
  | 0x7 => .ok (.addRegister (fieldX w) (fieldNN w))
  | 0x8 => decodeClass8 w
  | 0x9 => decodeClass59 strict .skipIfRegNotEqual w
  | 0xA => .ok (.setIndex (fieldNNN w))
  | 0xB => .ok (.jumpWithOffset (fieldNNN w))
  | 0xC => .ok (.random (fieldX w) (fieldNN w))
  | 0xD => .ok (.draw (fieldX w) (fieldY w) (fieldN w))
  | 0xE => decodeClassE w
  | _ => decodeClassF w

/-- Decoding a run of bytes: the instruction and the bytes after it. Every instruction is two bytes (R94). -/
def decodeBytes (strict : Bool) : List Byte → Except DecodeReject (Instr × List Byte)
  | hi :: lo :: rest =>
    match decodeWord strict (wordOfBytes hi lo) with
    | .ok i => .ok (i, rest)
    | .error e => .error e
  | _ => .error .truncated

/-- The instruction the decoder reads, at the default configuration, from an instruction whose bits are `w`, of which
the lowest `nbits` are given and the rest are 0. -/
def decodeTableWord (nbits w : Nat) : Option Instr :=
  let word : Word := BitVec.ofNat 16 (w % 2 ^ nbits)
  match decodeBytes Machine.defaultConfig.strict59 [hiByte word, loByte word] with
  | .ok (i, _) => some i
  | .error _ => none

/-! ## The encoder -/

/-- The word of an instruction (R77-R83, R90). -/
def encode : Instr → Word
  | .clear => 0x00E0#16
  | .ret => 0x00EE#16
  | .jump nnn => 0x1#4 ++ nnn
  | .callSubroutine nnn => 0x2#4 ++ nnn
  | .skipIfEqual x nn => 0x3#4 ++ x ++ nn
  | .skipIfNotEqual x nn => 0x4#4 ++ x ++ nn
  | .skipIfRegEqual x y n => 0x5#4 ++ x ++ y ++ n
  | .setRegister x nn => 0x6#4 ++ x ++ nn
  | .addRegister x nn => 0x7#4 ++ x ++ nn
  | .copy x y => 0x8#4 ++ x ++ y ++ 0x0#4
  | .bitOr x y => 0x8#4 ++ x ++ y ++ 0x1#4
  | .bitAnd x y => 0x8#4 ++ x ++ y ++ 0x2#4
  | .bitXor x y => 0x8#4 ++ x ++ y ++ 0x3#4
  | .add x y => 0x8#4 ++ x ++ y ++ 0x4#4
  | .subtract x y => 0x8#4 ++ x ++ y ++ 0x5#4
  | .shiftRight x y => 0x8#4 ++ x ++ y ++ 0x6#4
  | .subtractReverse x y => 0x8#4 ++ x ++ y ++ 0x7#4
  | .shiftLeft x y => 0x8#4 ++ x ++ y ++ 0xE#4
  | .skipIfRegNotEqual x y n => 0x9#4 ++ x ++ y ++ n
  | .setIndex nnn => 0xA#4 ++ nnn
  | .jumpWithOffset nnn => 0xB#4 ++ nnn
  | .random x nn => 0xC#4 ++ x ++ nn
  | .draw x y n => 0xD#4 ++ x ++ y ++ n
  | .skipIfKeyPressed x => 0xE#4 ++ x ++ 0x9E#8
  | .skipIfKeyNotPressed x => 0xE#4 ++ x ++ 0xA1#8
  | .readDelayIntoRegister x => 0xF#4 ++ x ++ 0x07#8
  | .blockingKeyWait x => 0xF#4 ++ x ++ 0x0A#8
  | .writeRegisterIntoDelay x => 0xF#4 ++ x ++ 0x15#8
  | .writeRegisterIntoSound x => 0xF#4 ++ x ++ 0x18#8
  | .addIndex x => 0xF#4 ++ x ++ 0x1E#8
  | .fontCharacterAddress x => 0xF#4 ++ x ++ 0x29#8
  | .bcd x => 0xF#4 ++ x ++ 0x33#8
  | .storeRegisters x => 0xF#4 ++ x ++ 0x55#8
  | .loadRegisters x => 0xF#4 ++ x ++ 0x65#8

/-- The two bytes of an instruction as memory holds them, lower address first (R56). -/
def encodeBytes (i : Instr) : List Byte := [hiByte (encode i), loByte (encode i)]

end Sys2Proof
end

