-- ==== Sys2Proof/Machine/Operands.lean ====
section
/-! DEFINITION. The operand forms: the effective address, the immediate extended into a word, the operands that the quirks
of cfg select, the key index, the glyph address and the decimal digits. -/

namespace Sys2Proof.Machine

/-- ea = I + k, an unbounded natural (R55, R66). -/
def State.ea (s : State) (k : Nat) : Nat := s.i.toNat + k

/-- `zext_16(NNN)` (R79). -/
def zextImm12 (nnn : Imm12) : Word := nnn.setWidth 16

/-- A byte extended into 16 bits with zeros (R10). -/
def zextByte (b : Byte) : Word := b.setWidth 16

/-- The X of BNNN: nnn[11:8] (R79, R107). -/
def jumpOffsetX (nnn : Imm12) : RegIx := nnn.extractLsb' 8 4

/-- BNNN's base: V0, or VX under JUMP_OFFSET_USES_VX (R107). -/
def State.jumpBase (s : State) (nnn : Imm12) : Byte :=
  if s.cfg.jumpOffsetUsesVX then s.reg (jumpOffsetX nnn) else s.reg 0#4

/-- The value 8XY6 and 8XYE shift: VX, or VY under SHIFT_COPIES_VY (R136, R138). -/
def State.shiftSource (s : State) (x y : RegIx) : Byte :=
  if s.cfg.shiftCopiesVY then s.reg y else s.reg x

/-- KeyIndex(VX) (R193). -/
def State.keyIndex (s : State) (x : RegIx) : Except Fault (BitVec 4) :=
  if (s.reg x).toNat ≤ 0xF then .ok ((s.reg x).setWidth 4)
  else
    match s.cfg.keyIndexPolicy with
    | .fatal => .error (.keyIndexOutOfRange (s.reg x) s.pc0)
    | .maskLowNibble => .ok ((s.reg x).setWidth 4)

/-- 0x050 + 5 * (b AND 0x0F) (R151). -/
def glyphAddress (b : Byte) : Word := 0x050#16 + 5#16 * zextByte (b &&& 0x0F#8)

/-- The three decimal digits of a byte, hundreds first (R152). -/
def bcdDigits (b : Byte) : List Byte :=
  [BitVec.ofNat 8 (b.toNat / 100), BitVec.ofNat 8 (b.toNat / 10 % 10), BitVec.ofNat 8 (b.toNat % 10)]

/-- V0..VX, in order (R153). -/
def State.regsUpTo (s : State) (x : RegIx) : List Byte := s.v.toList.take (x.toNat + 1)

/-- FX55's and FX65's last line: I <- (I + x + 1) mod 2^16 under LOADSTORE_INCREMENTS_I (R153). -/
def State.advanceIndex (s : State) (x : RegIx) : State :=
  if s.cfg.loadStoreIncrementsI then s.setI (s.i + x.setWidth 16 + 1#16) else s

end Sys2Proof.Machine
end

