-- ==== Sys2Proof/Machine/Alu.lean ====
section
/-! DEFINITION. The class-8 register-register instructions (R130-R140). Operands are read from the state before any
write; VX is written, then VF (R140). -/

namespace Sys2Proof.Machine

/-- `8XY0` (R130). -/
def execCopy (x y : RegIx) (s : State) : Host.Outcome State Fault Refusal :=
  .next (s.setReg x (s.reg y))

/-- `8XY1` (R131): VF untouched. -/
def execBitOr (x y : RegIx) (s : State) : Host.Outcome State Fault Refusal :=
  .next (s.setReg x (s.reg x ||| s.reg y))

/-- `8XY2` (R132): VF untouched. -/
def execBitAnd (x y : RegIx) (s : State) : Host.Outcome State Fault Refusal :=
  .next (s.setReg x (s.reg x &&& s.reg y))

/-- `8XY3` (R133): VF untouched. -/
def execBitXor (x y : RegIx) (s : State) : Host.Outcome State Fault Refusal :=
  .next (s.setReg x (s.reg x ^^^ s.reg y))

/-- `8XY4` (R134): VF is the carry. -/
def execAdd (x y : RegIx) (s : State) : Host.Outcome State Fault Refusal :=
  .next (s.writeResultThenFlag x (s.reg x + s.reg y) (carryOut (s.reg x) (s.reg y)))

/-- `8XY5` (R135): VX - VY, VF is no-borrow. -/
def execSubtract (x y : RegIx) (s : State) : Host.Outcome State Fault Refusal :=
  .next (s.writeResultThenFlag x (s.reg x - s.reg y) (noBorrow (s.reg x) (s.reg y)))

/-- `8XY6` (R136): VF is the bit shifted out. -/
def execShiftRight (x y : RegIx) (s : State) : Host.Outcome State Fault Refusal :=
  .next (s.writeResultThenFlag x (s.shiftSource x y >>> 1) (shiftedOutRight (s.shiftSource x y)))

/-- `8XY7` (R137): VY - VX, VF is no-borrow. -/
def execSubtractReverse (x y : RegIx) (s : State) : Host.Outcome State Fault Refusal :=
  .next (s.writeResultThenFlag x (s.reg y - s.reg x) (noBorrow (s.reg y) (s.reg x)))

/-- `8XYE` (R138): VF is the bit shifted out. -/
def execShiftLeft (x y : RegIx) (s : State) : Host.Outcome State Fault Refusal :=
  .next (s.writeResultThenFlag x (s.shiftSource x y <<< 1) (shiftedOutLeft (s.shiftSource x y)))

end Sys2Proof.Machine
end

