-- ==== Sys2Proof/Machine/ControlFlow.lean ====
section
/-! DEFINITION. The control-flow instructions (R100-R110). PC = pc0 + 2 on entry (R74). -/

namespace Sys2Proof.Machine

/-- `00EE` (R100, R206). -/
def execReturn (s : State) : Host.Outcome State Fault Refusal :=
  match s.stack.getLast? with
  | none => raiseFatal (.stackUnderflow s.pc0)
  | some a => .next ((s.setStack s.stack.dropLast).setPC a)

/-- `1NNN` (R101). -/
def execJump (nnn : Imm12) (s : State) : Host.Outcome State Fault Refusal :=
  .next (s.setPC (zextImm12 nnn))

/-- `2NNN` (R102, R207): the return address is the already advanced PC. -/
def execCallSubroutine (nnn : Imm12) (s : State) : Host.Outcome State Fault Refusal :=
  if s.cfg.stackLimit = some s.stack.length then raiseFatal (.stackOverflow s.pc0)
  else .next ((s.push s.pc).setPC (zextImm12 nnn))

/-- `3XNN` (R103). -/
def execSkipIfEqual (x : RegIx) (nn : Imm8) (s : State) : Host.Outcome State Fault Refusal :=
  .next (s.skipIf (s.reg x == nn))

/-- `4XNN` (R104). -/
def execSkipIfNotEqual (x : RegIx) (nn : Imm8) (s : State) : Host.Outcome State Fault Refusal :=
  .next (s.skipIf (s.reg x != nn))

/-- `5XYN` (R105): N is not examined. -/
def execSkipIfRegEqual (x y : RegIx) (s : State) : Host.Outcome State Fault Refusal :=
  .next (s.skipIf (s.reg x == s.reg y))

/-- `9XYN` (R106): N is not examined. -/
def execSkipIfRegNotEqual (x y : RegIx) (s : State) : Host.Outcome State Fault Refusal :=
  .next (s.skipIf (s.reg x != s.reg y))

/-- `BNNN` (R107): at most 0x10FE, so 16 bits hold it. -/
def execJumpWithOffset (nnn : Imm12) (s : State) : Host.Outcome State Fault Refusal :=
  .next (s.setPC (zextImm12 nnn + zextByte (s.jumpBase nnn)))

end Sys2Proof.Machine
end

