-- ==== Sys2Proof/Machine/DisplayOps.lean ====
section
/-! DEFINITION. The display instructions (R170-R173), the only writers of the display. -/

namespace Sys2Proof.Machine

/-- `00E0` (R170). -/
def execClear (s : State) : Host.Outcome State Fault Refusal :=
  .next (s.setDisp (Vector.replicate 32 0#64))

/-- `DXYN` (R171): the coordinates are read before VF is cleared, so VF's final value is the collision flag. -/
def execDraw (x y : RegIx) (n : Nibble) (s : State) : Host.Outcome State Fault Refusal :=
  match drawRows s.mem s.pc0 (s.ea 0) ((s.reg x).toNat % 64) ((s.reg y).toNat % 32) n.toNat 0 s.disp false with
  | .error f => raiseFatal f
  | .ok (d, hit) => .next ((s.setDisp d).setVF (flagByte hit))

end Sys2Proof.Machine
end

