-- ==== Sys2Proof/Machine/Immediate.lean ====
section
/-! DEFINITION. The immediate and index-set instructions (R120-R124). -/

namespace Sys2Proof.Machine

/-- `6XNN` (R120). -/
def execSetRegister (x : RegIx) (nn : Imm8) (s : State) : Host.Outcome State Fault Refusal :=
  .next (s.setReg x nn)

/-- `7XNN` (R121): modulo 256, no flag. -/
def execAddRegister (x : RegIx) (nn : Imm8) (s : State) : Host.Outcome State Fault Refusal :=
  .next (s.setReg x (s.reg x + nn))

/-- `ANNN` (R122). -/
def execSetIndex (nnn : Imm12) (s : State) : Host.Outcome State Fault Refusal :=
  .next (s.setI (zextImm12 nnn))

/-- `CXNN` (R123): rnd is the step's draw, a free input. -/
def execRandom (x : RegIx) (nn : Imm8) (s : State) : Host.Outcome State Fault Refusal :=
  .next (s.setReg x (s.rnd &&& nn))

end Sys2Proof.Machine
end

