-- ==== Sys2Proof/Machine/Input.lean ====
section
/-! DEFINITION. The input instructions (R190-R194). Every key query reads the step's one sample (R194). -/

namespace Sys2Proof.Machine

/-- `EX9E` (R190). -/
def execSkipIfKeyPressed (x : RegIx) (s : State) : Host.Outcome State Fault Refusal :=
  match s.keyIndex x with
  | .error f => raiseFatal f
  | .ok k => .next (s.skipIf (s.keyDown k))

/-- `EXA1` (R191). -/
def execSkipIfKeyNotPressed (x : RegIx) (s : State) : Host.Outcome State Fault Refusal :=
  match s.keyIndex x with
  | .error f => raiseFatal f
  | .ok k => .next (s.skipIf (!s.keyDown k))

/-- `FX0A` (R192): no key down, PC goes back to pc0; else the selected key is latched. -/
def execBlockingKeyWait (x : RegIx) (s : State) : Host.Outcome State Fault Refusal :=
  .next (if s.anyKey then s.setReg x ((selectKey s.keys).setWidth 8) else s.setPC (s.pc - 2#16))

end Sys2Proof.Machine
end

