-- ==== Sys2Proof/Machine/MemoryIndex.lean ====
section
/-! DEFINITION. The memory and index instructions (R150-R156). -/

namespace Sys2Proof.Machine

/-- `FX1E` (R150): I modulo 2^16; VF is set on overflow past 0xFFF and never cleared. -/
def execAddIndex (x : RegIx) (s : State) : Host.Outcome State Fault Refusal :=
  .next (if indexOverflow s.i (s.reg x) then (s.setI (s.i + zextByte (s.reg x))).setVF 1#8
    else s.setI (s.i + zextByte (s.reg x)))

/-- `FX29` (R151). -/
def execFontCharacterAddress (x : RegIx) (s : State) : Host.Outcome State Fault Refusal :=
  .next (s.setI (glyphAddress (s.reg x)))

/-- `FX33` (R152). -/
def execBcd (x : RegIx) (s : State) : Host.Outcome State Fault Refusal :=
  match storeBlock s.mem s.pc0 (s.ea 0) (bcdDigits (s.reg x)) with
  | .error f => raiseFatal f
  | .ok m => .next (s.setMem m)

/-- `FX55` (R153, R154). -/
def execStoreRegisters (x : RegIx) (s : State) : Host.Outcome State Fault Refusal :=
  match storeBlock s.mem s.pc0 (s.ea 0) (s.regsUpTo x) with
  | .error f => raiseFatal f
  | .ok m => .next ((s.setMem m).advanceIndex x)

/-- `FX65` (R153, R155). -/
def execLoadRegisters (x : RegIx) (s : State) : Host.Outcome State Fault Refusal :=
  match loadBlock s.mem s.pc0 (s.ea 0) (x.toNat + 1) with
  | .error f => raiseFatal f
  | .ok bs => .next ((s.setV (writeRegs s.v 0 bs)).advanceIndex x)

end Sys2Proof.Machine
end

