-- ==== Sys2Proof/Machine/Timers.lean ====
section
/-! DEFINITION. The timer instructions (R180-R183). The step's countdown follows each of them (R74, R211). -/

namespace Sys2Proof.Machine

/-- `FX07` (R180): DT as the previous step's countdown left it. -/
def execReadDelayIntoRegister (x : RegIx) (s : State) : Host.Outcome State Fault Refusal :=
  .next (s.setReg x s.dt)

/-- `FX15` (R181). -/
def execWriteRegisterIntoDelay (x : RegIx) (s : State) : Host.Outcome State Fault Refusal :=
  .next (s.setDT (s.reg x))

/-- `FX18` (R182). -/
def execWriteRegisterIntoSound (x : RegIx) (s : State) : Host.Outcome State Fault Refusal :=
  .next (s.setST (s.reg x))

end Sys2Proof.Machine
end

