-- ==== Sys2Proof/Machine/Dispatch.lean ====
section
/-! DEFINITION. The dispatcher (R73): one arm per instruction, each one call of its meaning. -/

namespace Sys2Proof.Machine

def exec (i : Instr) (s : State) : Host.Outcome State Fault Refusal :=
  match i with
  | .clear => Sys2Proof.Machine.execClear s
  | .ret => Sys2Proof.Machine.execReturn s
  | .jump nnn => Sys2Proof.Machine.execJump nnn s
  | .callSubroutine nnn => Sys2Proof.Machine.execCallSubroutine nnn s
  | .skipIfEqual x nn => Sys2Proof.Machine.execSkipIfEqual x nn s
  | .skipIfNotEqual x nn => Sys2Proof.Machine.execSkipIfNotEqual x nn s
  | .skipIfRegEqual x y _ => Sys2Proof.Machine.execSkipIfRegEqual x y s
  | .setRegister x nn => Sys2Proof.Machine.execSetRegister x nn s
  | .addRegister x nn => Sys2Proof.Machine.execAddRegister x nn s
  | .copy x y => Sys2Proof.Machine.execCopy x y s
  | .bitOr x y => Sys2Proof.Machine.execBitOr x y s
  | .bitAnd x y => Sys2Proof.Machine.execBitAnd x y s
  | .bitXor x y => Sys2Proof.Machine.execBitXor x y s
  | .add x y => Sys2Proof.Machine.execAdd x y s
  | .subtract x y => Sys2Proof.Machine.execSubtract x y s
  | .shiftRight x y => Sys2Proof.Machine.execShiftRight x y s
  | .subtractReverse x y => Sys2Proof.Machine.execSubtractReverse x y s
  | .shiftLeft x y => Sys2Proof.Machine.execShiftLeft x y s
  | .skipIfRegNotEqual x y _ => Sys2Proof.Machine.execSkipIfRegNotEqual x y s
  | .setIndex nnn => Sys2Proof.Machine.execSetIndex nnn s
  | .jumpWithOffset nnn => Sys2Proof.Machine.execJumpWithOffset nnn s
  | .random x nn => Sys2Proof.Machine.execRandom x nn s
  | .draw x y n => Sys2Proof.Machine.execDraw x y n s
  | .skipIfKeyPressed x => Sys2Proof.Machine.execSkipIfKeyPressed x s
  | .skipIfKeyNotPressed x => Sys2Proof.Machine.execSkipIfKeyNotPressed x s
  | .readDelayIntoRegister x => Sys2Proof.Machine.execReadDelayIntoRegister x s
  | .blockingKeyWait x => Sys2Proof.Machine.execBlockingKeyWait x s
  | .writeRegisterIntoDelay x => Sys2Proof.Machine.execWriteRegisterIntoDelay x s
  | .writeRegisterIntoSound x => Sys2Proof.Machine.execWriteRegisterIntoSound x s
  | .addIndex x => Sys2Proof.Machine.execAddIndex x s
  | .fontCharacterAddress x => Sys2Proof.Machine.execFontCharacterAddress x s
  | .bcd x => Sys2Proof.Machine.execBcd x s
  | .storeRegisters x => Sys2Proof.Machine.execStoreRegisters x s
  | .loadRegisters x => Sys2Proof.Machine.execLoadRegisters x s

end Sys2Proof.Machine
end

