-- ==== Sys2Proof/Machine/Sequencer.lean ====
section
/-! DEFINITION. The program-counter sequencer: fetch, the Execution Step (R70, R74), and placing an instruction where the
next step fetches it. -/

namespace Sys2Proof.Machine

/-- Fetch16(pc0) (R70): the byte at PC, then the byte at PC + 1 (an unbounded sum), big-endian. -/
def fetch16 (s : State) : Except Fault Word :=
  match loadByte s.mem s.pc s.pc.toNat with
  | .error f => .error f
  | .ok hi =>
    match loadByte s.mem s.pc (s.pc.toNat + 1) with
    | .error f => .error f
    | .ok lo => .ok (wordOfBytes hi lo)

/-- What follows dispatch: the countdown, in every step that does not end fatally (R74, R75, R211). -/
def afterDispatch : Host.Outcome State Fault Refusal → Host.Outcome State Fault Refusal
  | .next s => .next s.timerTick
  | .fault f => .fault f
  | .refused r => .refused r

/-- Decode and dispatch of the fetched word (R73, R74): the instruction's rule, or the unknown-instruction report
(R201). `s` is the state the word was fetched in. -/
def dispatchWord (w : Word) (s : State) : Host.Outcome State Fault Refusal :=
  match decodeWord s.cfg.strict59 w with
  | .ok i => exec i (s.fetched w)
  | .error _ => .next ((s.fetched w).reportUnknown w s.pc)

/-- Fetch, decode, dispatch, countdown (R74), on a state whose inputs are sampled. -/
def fetchAndDispatch (s : State) : Host.Outcome State Fault Refusal :=
  match fetch16 s with
  | .error f => raiseFatal f
  | .ok w => afterDispatch (dispatchWord w s)

/-- One strobe of the port `step` (R45): exactly one Execution Step while status is Running, nothing otherwise (R36,
R74; log 10). -/
def stepStrobe (s : State) : Host.Outcome State Fault Refusal :=
  match s.status with
  | .running => fetchAndDispatch s.sampleInputs
  | .stopped => .next s
  | .fatal _ => .next s

/-- The instruction whose bits are `w` (the lowest `nbits` given, the rest 0), big-endian at PC and PC + 1 (R56), with
status Running; a PC whose two bytes do not lie in memory leaves memory alone, since no instruction can be fetched
there. It stands for the ROM load (log 9). -/
def placeFetchWord (s : State) (nbits w : Nat) : State :=
  if s.pc.toNat + 1 < memSize then
    (s.setMem (Memory.writeList s.mem s.pc.toNat
      [hiByte (BitVec.ofNat 16 (w % 2 ^ nbits)), loByte (BitVec.ofNat 16 (w % 2 ^ nbits))])).setStatus .running
  else s.setStatus .running

end Sys2Proof.Machine
end

