-- ==== Sys2Proof/Machine/Step.lean ====
section
/-! DEFINITION. One step, and a state whose next fetch is a given instruction. Both only call Machine/Sequencer.lean. -/

namespace Sys2Proof.Machine

/-- One strobe of the port `step` (R45, R74). -/
def step (s : State) : Host.Outcome State Fault Refusal := stepStrobe s

/-- `s` with the instruction whose bits are `w` stored where the next step fetches (log 9). -/
def State.withFetchWord (s : State) (nbits w : Nat) : State := placeFetchWord s nbits w

end Sys2Proof.Machine
end

