-- ==== Sys2Proof/Machine/Ports.lean ====
section
/-! DEFINITION. What the host can do to the block besides strobing `step` (R45, R218): construct it, stop it, and see the
status and the condition codes after a strobe. -/

namespace Sys2Proof.Machine

/-- Reset = construction (R240-R243): a fresh machine with the given cfg, INIT_V, INIT_I and ROM. FONT goes to 0x050, the
ROM to 0x200; a ROM of more than 3584 bytes gives Fatal(RomTooLarge, len) and no step is ever taken (R242). -/
def construct (cfg : Config) (initV : Vector Byte 16) (initI : Word) (rom : List Byte) : State :=
  let s : State := { State.reset with
    cfg := cfg, v := initV, i := initI, mem := Memory.writeList State.reset.mem fontBase cfg.font.toList }
  if romMax < rom.length then s.setStatus (.fatal (.romTooLarge rom.length))
  else s.setMem (Memory.writeList s.mem progBase rom)

/-- A stop request between two steps: Running becomes Stopped (R46); any other status stays (R36). -/
def requestStop (s : State) : State :=
  match s.status with
  | .running => s.setStatus .stopped
  | .stopped => s
  | .fatal _ => s

/-- The block after one strobe of `step`, as its output ports show it: the next state, or, after a fatal step, the last
state with status Fatal(kind, info) (R36, R204). -/
def strobe (s : State) : State :=
  match step s with
  | .next t => t
  | .fault f => s.setStatus (.fatal f)
  | .refused _ => s

/-! ## Condition codes (R203)

A normal stop is status Stopped; it is no condition and has no code. -/

/-- The kinds of R203's table, in its order. -/
inductive ConditionKind where
  | unknownInstruction
  | addressOutOfRange
  | stackUnderflow
  | stackOverflow
  | keyIndexOutOfRange
  | romTooLarge
  deriving DecidableEq, Repr

/-- R203's column "code"; the numbering is the spec's decision D13. -/
def ConditionKind.code : ConditionKind → Nat
  | .unknownInstruction => 1
  | .addressOutOfRange => 2
  | .stackUnderflow => 3
  | .stackOverflow => 4
  | .keyIndexOutOfRange => 5
  | .romTooLarge => 6

/-- R203's column "fatal" ("yes, at load" for RomTooLarge, which construction raises). -/
def ConditionKind.fatal : ConditionKind → Bool
  | .unknownInstruction => false
  | .addressOutOfRange => true
  | .stackUnderflow => true
  | .stackOverflow => true
  | .keyIndexOutOfRange => true
  | .romTooLarge => true

/-- The kind of a fatal condition; its other arguments are R203's column "info recorded". -/
def Fault.kind : Fault → ConditionKind
  | .addressOutOfRange _ _ => .addressOutOfRange
  | .stackUnderflow _ => .stackUnderflow
  | .stackOverflow _ => .stackOverflow
  | .keyIndexOutOfRange _ _ => .keyIndexOutOfRange
  | .romTooLarge _ => .romTooLarge

/-- The kind of a report: UnknownInstruction, the one condition that is not fatal. Its info recorded is the report's word
and pc0. -/
def UnknownReport.kind (_ : UnknownReport) : ConditionKind := .unknownInstruction

/-- The code of a fatal condition (R203). -/
def Fault.code (f : Fault) : Nat := f.kind.code

/-- The code of a report (R203). -/
def UnknownReport.code (r : UnknownReport) : Nat := r.kind.code

/-- The port disp[2047:0] (R45): bit n is pixel D[n mod 64, n / 64]. -/
def State.dispPort (s : State) (n : Nat) : Bool := s.pixel (n % 64) (n / 64)

end Sys2Proof.Machine
end

