-- ==== Sys2Proof/Safety.lean ====
section
/-! DEFINITION. The terms the claims are stated in: the invariants of the machine, a run without a fault, the frames, the
opcode table of R90 as data, who writes what (R24), and the sprite's pixels (R171). -/

namespace Sys2Proof.Machine

/-! ## Invariants and safe runs -/

/-- PC is at most what R28 derives: 0x10FE, from BNNN. -/
abbrev State.pcInRange (s : State) : Prop := s.pc.toNat ≤ 0x10FE

/-- Every return address is at most 0x1000 (R28). -/
abbrev State.returnAddressesInRange (s : State) : Prop := (s.stack.all fun a => a.toNat ≤ 0x1000) = true

/-- length(S) ≤ STACK_LIMIT, if set (R20). -/
abbrev State.stackWithinLimit (s : State) : Prop := (s.cfg.stackLimit.all fun n => s.stack.length ≤ n) = true

/-- PC and stack stay in the ranges of R20 and R28. -/
abbrev State.controlInRange (s : State) : Prop :=
  s.pcInRange ∧ s.returnAddressesInRange ∧ s.stackWithinLimit

/-- The memory list is in its canonical form. -/
abbrev State.memoryCanonical (s : State) : Prop := Memory.wf s.mem

/-- A run of `k` strobes with no fatal condition. -/
def runsSafely (k : Nat) (s : State) : Prop := ∃ t, Host.Core.run Sys2Proof.core k s = .next t

/-! ## Frames -/

/-- Nothing but V registers changes from `s` to `t`, and of those only the ones in `xs`. -/
def changesOnlyRegs (s t : State) (xs : List RegIx) : Prop :=
  t = { s with v := t.v } ∧ ∀ r, r ∉ xs → t.reg r = s.reg r

/-- Every byte of memory outside the `n` bytes at `lo` reads as before. -/
def memorySameOutside (s t : State) (lo n : Nat) : Prop :=
  ∀ a, ¬(lo ≤ a ∧ a < lo + n) → t.peek a = s.peek a

/-! ## What is fetched -/

/-- The word at PC, when both its bytes lie in memory (R70). -/
def State.wordAtPC (s : State) : Option Word :=
  if s.pc.toNat + 1 < memSize then some (wordOfBytes (s.peek s.pc.toNat) (s.peek (s.pc.toNat + 1))) else none

/-- The instruction at PC, when the word there is one (R73). -/
def State.instrAtPC (s : State) : Option Instr :=
  match s.wordAtPC with
  | none => none
  | some w => (decodeWord s.cfg.strict59 w).toOption

/-- The step from `s` took its inputs, and `u` holds them as its ports (R43, R194; log 1): the host's oldest fixed pair,
which is then gone, or, where the host has fixed none, the two free values of this step's number, so that no two such steps
share a draw (R123). -/
def State.inputsTaken (s u : State) : Prop :=
  match s.inputs with
  | inp :: rest => u.keys = inp.keys ∧ u.rnd = inp.rnd ∧ u.inputs = rest ∧ u.draws = s.draws
  | [] => u.keys = Config.freeKeys s.draws ∧ u.rnd = Config.freeRnd s.draws ∧ u.inputs = [] ∧ u.draws = s.draws + 1

/-! ## The opcode table (R90) -/

/-- A row of R90: the words `w` with `w AND mask = pat` are the instruction `make w`. -/
structure OpcodeRow where
  mask : Word
  pat : Word
  make : Word → Instr

/-- `w AND mask = match` (R90). -/
def OpcodeRow.matches (r : OpcodeRow) (w : Word) : Bool := w &&& r.mask == r.pat

/-- The mask of rows 5XYN and 9XYN: 0xF000, or 0xF00F under STRICT_5_9 (R90, R92). -/
def mask59 (strict : Bool) : Word := if strict then 0xF00F#16 else 0xF000#16

/-- The 34 rows of R90, in its order. -/
def opcodeRows (strict : Bool) : List OpcodeRow :=
  [⟨0xFFFF#16, 0x00E0#16, fun _ => .clear⟩,
   ⟨0xFFFF#16, 0x00EE#16, fun _ => .ret⟩,
   ⟨0xF000#16, 0x1000#16, fun w => .jump (fieldNNN w)⟩,
   ⟨0xF000#16, 0x2000#16, fun w => .callSubroutine (fieldNNN w)⟩,
   ⟨0xF000#16, 0x3000#16, fun w => .skipIfEqual (fieldX w) (fieldNN w)⟩,
   ⟨0xF000#16, 0x4000#16, fun w => .skipIfNotEqual (fieldX w) (fieldNN w)⟩,
   ⟨mask59 strict, 0x5000#16, fun w => .skipIfRegEqual (fieldX w) (fieldY w) (fieldN w)⟩,
   ⟨0xF000#16, 0x6000#16, fun w => .setRegister (fieldX w) (fieldNN w)⟩,
   ⟨0xF000#16, 0x7000#16, fun w => .addRegister (fieldX w) (fieldNN w)⟩] ++
  [⟨0xF00F#16, 0x8000#16, fun w => .copy (fieldX w) (fieldY w)⟩,
   ⟨0xF00F#16, 0x8001#16, fun w => .bitOr (fieldX w) (fieldY w)⟩,
   ⟨0xF00F#16, 0x8002#16, fun w => .bitAnd (fieldX w) (fieldY w)⟩,
   ⟨0xF00F#16, 0x8003#16, fun w => .bitXor (fieldX w) (fieldY w)⟩,
   ⟨0xF00F#16, 0x8004#16, fun w => .add (fieldX w) (fieldY w)⟩,
   ⟨0xF00F#16, 0x8005#16, fun w => .subtract (fieldX w) (fieldY w)⟩,
   ⟨0xF00F#16, 0x8006#16, fun w => .shiftRight (fieldX w) (fieldY w)⟩,
   ⟨0xF00F#16, 0x8007#16, fun w => .subtractReverse (fieldX w) (fieldY w)⟩,
   ⟨0xF00F#16, 0x800E#16, fun w => .shiftLeft (fieldX w) (fieldY w)⟩] ++
  [⟨mask59 strict, 0x9000#16, fun w => .skipIfRegNotEqual (fieldX w) (fieldY w) (fieldN w)⟩,
   ⟨0xF000#16, 0xA000#16, fun w => .setIndex (fieldNNN w)⟩,
   ⟨0xF000#16, 0xB000#16, fun w => .jumpWithOffset (fieldNNN w)⟩,
   ⟨0xF000#16, 0xC000#16, fun w => .random (fieldX w) (fieldNN w)⟩,
   ⟨0xF000#16, 0xD000#16, fun w => .draw (fieldX w) (fieldY w) (fieldN w)⟩,
   ⟨0xF0FF#16, 0xE09E#16, fun w => .skipIfKeyPressed (fieldX w)⟩,
   ⟨0xF0FF#16, 0xE0A1#16, fun w => .skipIfKeyNotPressed (fieldX w)⟩] ++
  [⟨0xF0FF#16, 0xF007#16, fun w => .readDelayIntoRegister (fieldX w)⟩,
   ⟨0xF0FF#16, 0xF00A#16, fun w => .blockingKeyWait (fieldX w)⟩,
   ⟨0xF0FF#16, 0xF015#16, fun w => .writeRegisterIntoDelay (fieldX w)⟩,
   ⟨0xF0FF#16, 0xF018#16, fun w => .writeRegisterIntoSound (fieldX w)⟩,
   ⟨0xF0FF#16, 0xF01E#16, fun w => .addIndex (fieldX w)⟩,
   ⟨0xF0FF#16, 0xF029#16, fun w => .fontCharacterAddress (fieldX w)⟩,
   ⟨0xF0FF#16, 0xF033#16, fun w => .bcd (fieldX w)⟩,
   ⟨0xF0FF#16, 0xF055#16, fun w => .storeRegisters (fieldX w)⟩,
   ⟨0xF0FF#16, 0xF065#16, fun w => .loadRegisters (fieldX w)⟩]

/-! ## Who writes what -/

/-- The V registers R24 lets an instruction write. FX0A and FX1E may leave theirs as they are. -/
def registersWritten : Instr → RegIx → Bool
  | .clear, _ => false
  | .ret, _ => false
  | .jump _, _ => false
  | .callSubroutine _, _ => false
  | .skipIfEqual _ _, _ => false
  | .skipIfNotEqual _ _, _ => false
  | .skipIfRegEqual _ _ _, _ => false
  | .setRegister x _, r => r == x
  | .addRegister x _, r => r == x
  | .copy x _, r => r == x
  | .bitOr x _, r => r == x
  | .bitAnd x _, r => r == x
  | .bitXor x _, r => r == x
  | .add x _, r => r == x || r == vf
  | .subtract x _, r => r == x || r == vf
  | .shiftRight x _, r => r == x || r == vf
  | .subtractReverse x _, r => r == x || r == vf
  | .shiftLeft x _, r => r == x || r == vf
  | .skipIfRegNotEqual _ _ _, _ => false
  | .setIndex _, _ => false
  | .jumpWithOffset _, _ => false
  | .random x _, r => r == x
  | .draw _ _ _, r => r == vf
  | .skipIfKeyPressed _, _ => false
  | .skipIfKeyNotPressed _, _ => false
  | .readDelayIntoRegister x, r => r == x
  | .blockingKeyWait x, r => r == x
  | .writeRegisterIntoDelay _, _ => false
  | .writeRegisterIntoSound _, _ => false
  | .addIndex _, r => r == vf
  | .fontCharacterAddress _, _ => false
  | .bcd _, _ => false
  | .storeRegisters _, _ => false
  | .loadRegisters x, r => decide (r.toNat ≤ x.toNat)

/-- The instructions R173 lets write the display. -/
def writesDisplay (i : Instr) : Prop := i = .clear ∨ ∃ x y n, i = .draw x y n

/-- The instructions R54 and R58 let write memory. -/
def writesMemory (i : Instr) : Prop := ∃ x, i = .bcd x ∨ i = .storeRegisters x

/-- The instructions R29 lets reach the call stack. -/
def reachesStack (i : Instr) : Prop := i = .ret ∨ ∃ nnn, i = .callSubroutine nnn

/-- The writers of I (R26); FX55 and FX65 only under LOADSTORE_INCREMENTS_I. -/
def writesIndex (c : Config) (i : Instr) : Prop :=
  (∃ nnn, i = .setIndex nnn) ∨ (∃ x, i = .addIndex x ∨ i = .fontCharacterAddress x) ∨
    (c.loadStoreIncrementsI = true ∧ ∃ x, i = .storeRegisters x ∨ i = .loadRegisters x)

/-! ## The sprite (R171, R172) -/

/-- The sprite of `n` rows at memory address I, drawn with its top left pixel at column `x0`, row `y0`, has a 1-bit at
display pixel (px, py): the byte of row py - y0 is Mem[I + (py - y0)], and its bit 7 is the leftmost pixel. A pixel off
the grid is asked for by no one: the display has 64 columns and 32 rows. -/
def State.spriteBit (s : State) (x0 y0 n px py : Nat) : Bool :=
  decide (y0 ≤ py ∧ py < y0 + n ∧ x0 ≤ px ∧ px < x0 + 8) && (s.peek (s.ea (py - y0))).getLsbD (7 - (px - x0))

/-- DXYN's start column: VX mod 64 (R171). -/
def State.drawColumn (s : State) (x : RegIx) : Nat := (s.reg x).toNat % 64

/-- DXYN's start row: VY mod 32 (R171). -/
def State.drawRow (s : State) (y : RegIx) : Nat := (s.reg y).toNat % 32

/-- Every sprite row that DXYN reads, those above the bottom edge, lies in memory (R171). -/
def State.spriteInMemory (s : State) (y : RegIx) (n : Nibble) : Prop :=
  ∀ r, r < n.toNat → s.drawRow y + r < 32 → s.ea r < memSize

end Sys2Proof.Machine
end

