-- ==== Sys2Proof/Certificates/Slice0/Obligations.lean ====
section
/-! DEFINITION. The statements for the provers. Each docstring names the rules of spec/ it formalises. -/

open Sys2Proof Sys2Proof.Machine

/-! ## Encoding -/

/-- R71 (and R14): the six fields are the word's bits by fixed shifts and masks, for each of the 65536 words. -/
def Obligations.FieldsAreFixedSlicesOfWord : Prop :=
  ∀ w : Word,
    (fieldF w).toNat = w.toNat / 4096 ∧ (fieldX w).toNat = w.toNat / 256 % 16 ∧
    (fieldY w).toNat = w.toNat / 16 % 16 ∧ (fieldN w).toNat = w.toNat % 16 ∧
    (fieldNN w).toNat = w.toNat % 256 ∧ (fieldNNN w).toNat = w.toNat % 4096

/-- R77-R83, R90, R92, on the opcode map of the spec's decision D19: under either setting of STRICT_5_9, the word of a well-formed instruction decodes to that
instruction, for every value of every operand. -/
def Obligations.EncodedInstructionDecodesToItself : Prop :=
  ∀ (strict : Bool) (i : Instr), i.wellFormed strict = true → decodeWord strict (encode i) = .ok i

/-- R73, R90, on the opcode map of the spec's decision D19: each known word is the word of exactly one instruction: encoding what it decodes to gives the word back. -/
def Obligations.DecodedWordEncodesBack : Prop :=
  ∀ (strict : Bool) (w : Word) (i : Instr),
    decodeWord strict w = .ok i → encode i = w ∧ i.wellFormed strict = true

/-- R90 (the mask and match columns, whose values are the spec's decision D19): a word is instruction r when (w AND mask_r) = match_r; no two rows match one word;
a word that matches no row is no instruction. With STRICT_5_9 rows 5XYN and 9XYN have mask 0xF00F. -/
def Obligations.DecoderAgreesWithOpcodeTable : Prop :=
  ∀ strict : Bool,
    (opcodeRows strict).length = 34 ∧
    (∀ r ∈ opcodeRows strict, ∀ w, r.matches w = true → decodeWord strict w = .ok (r.make w)) ∧
    (∀ w, (∀ r ∈ opcodeRows strict, r.matches w = false) → ∃ e, decodeWord strict w = .error e) ∧
    (opcodeRows strict).Pairwise (fun r r' => ∀ w, ¬(r.matches w = true ∧ r'.matches w = true))

/-- R99 (derived there from R86-R89): the spec's decode test points, with cfg at its defaults, and 0x5121 under STRICT_5_9. -/
def Obligations.DecodeTestPoints : Prop :=
  decodeWord false 0x00E0#16 = .ok .clear ∧
  decodeWord false 0x00EE#16 = .ok .ret ∧
  decodeWord false 0x00E1#16 = .error .unknownClass0 ∧
  decodeWord false 0x0000#16 = .error .unknownClass0 ∧
  decodeWord false 0x0123#16 = .error .unknownClass0 ∧
  decodeWord false 0x1ABC#16 = .ok (.jump 0xABC#12) ∧
  decodeWord false 0x5121#16 = .ok (.skipIfRegEqual 1#4 2#4 1#4) ∧
  decodeWord true 0x5121#16 = .error .strictLowNibble ∧
  decodeWord false 0x8AB4#16 = .ok (.add 0xA#4 0xB#4) ∧
  decodeWord false 0x8AB8#16 = .error .unknownClass8 ∧
  decodeWord false 0x8ABF#16 = .error .unknownClass8 ∧
  decodeWord false 0xD125#16 = .ok (.draw 1#4 2#4 5#4) ∧
  decodeWord false 0xE39E#16 = .ok (.skipIfKeyPressed 3#4) ∧
  decodeWord false 0xE3A2#16 = .error .unknownClassE ∧
  decodeWord false 0xF165#16 = .ok (.loadRegisters 1#4) ∧
  decodeWord false 0xF166#16 = .error .unknownClassF ∧
  decodeWord false 0xFF0A#16 = .ok (.blockingKeyWait 0xF#4)

/-! ## The Execution Step -/

/-- R70: the word at PC is the byte at PC, high, and the byte at PC + 1, low; the first of the two that is ≥ 0x1000 is
Fatal(AddressOutOfRange) with that address. -/
def Obligations.FetchReadsTwoBytesBigEndian : Prop :=
  ∀ s : State,
    (0x1000 ≤ s.pc.toNat → fetch16 s = .error (.addressOutOfRange s.pc.toNat s.pc)) ∧
    (s.pc.toNat < 0x1000 → 0x1000 ≤ s.pc.toNat + 1 →
      fetch16 s = .error (.addressOutOfRange (s.pc.toNat + 1) s.pc)) ∧
    (s.pc.toNat + 1 < 0x1000 → ∃ w, fetch16 s = .ok w ∧
      w.toNat = (s.peek s.pc.toNat).toNat * 256 + (s.peek (s.pc.toNat + 1)).toNat)

/-- R70, R74, R75, with the countdown of R211 and R212 after dispatch (the spec's decisions D2, D15): when the machine is
running and the two bytes at PC decode to i, the step is exec of i on the state whose inputs are sampled and whose PC,
diag_word and report are those after the fetch; after a next state t of exec both timers go down by one, floored at 0, the
pulse says whether ST was non-zero, and nothing else changes; a fault of exec is the step's, and no countdown follows it.
What sampling gives (R43, R123, R194; how the model supplies it is log 1): the host's oldest fixed keys and draw, which are
then used up, or else this step's two free values, with the counter of such steps one further. -/
def Obligations.StepRunsDecodedInstruction : Prop :=
  ∀ (s : State) (i : Instr), s.status = .running → s.pc.toNat + 1 < memSize →
    decodeWord s.cfg.strict59 (wordOfBytes (s.peek s.pc.toNat) (s.peek (s.pc.toNat + 1))) = .ok i →
    ∃ u, u = s.sampleInputs.fetched (wordOfBytes (s.peek s.pc.toNat) (s.peek (s.pc.toNat + 1))) ∧
      u.pc = s.pc + 2#16 ∧ u.diagWord = wordOfBytes (s.peek s.pc.toNat) (s.peek (s.pc.toNat + 1)) ∧
      u.unknownReport = none ∧ u.v = s.v ∧ u.i = s.i ∧ u.stack = s.stack ∧ u.dt = s.dt ∧ u.st = s.st ∧
      u.disp = s.disp ∧ u.mem = s.mem ∧ u.status = s.status ∧ u.cfg = s.cfg ∧ u.soundPulse = s.soundPulse ∧
      s.inputsTaken u ∧
      (∀ t, exec i u = .next t → ∃ t', step s = .next t' ∧ t'.dt.toNat = t.dt.toNat - 1 ∧
        t'.st.toNat = t.st.toNat - 1 ∧ t'.soundPulse = decide (t.st ≠ 0#8) ∧
        t' = { t with dt := t'.dt, st := t'.st, soundPulse := t'.soundPulse }) ∧
      (∀ f, exec i u = .fault f → step s = .fault f)

/-- R201, R203 (code 1), with the report's content and code of the spec's decisions D14 and D13: an unknown word is
reported and is otherwise a no-op: PC is pc0 + 2, the countdown runs, and no register, I, stack, memory or display changes.
The step takes its inputs as every step does (log 1). -/
def Obligations.UnknownWordIsReportedNoOp : Prop :=
  ∀ (s : State) (w : Word), s.status = .running → s.wordAtPC = some w →
    (∃ e, decodeWord s.cfg.strict59 w = .error e) →
    ∃ t r, step s = .next t ∧ t.unknownReport = some r ∧ r.word = w ∧ r.pc0 = s.pc ∧ r.code = 1 ∧
      r.kind.fatal = false ∧ t.pc = s.pc + 2#16 ∧ s.inputsTaken t ∧
      t.diagWord = w ∧ t.v = s.v ∧ t.i = s.i ∧ t.stack = s.stack ∧ t.mem = s.mem ∧ t.disp = s.disp ∧
      t.status = .running ∧ t.cfg = s.cfg ∧
      t.dt.toNat = s.dt.toNat - 1 ∧ t.st.toNat = s.st.toNat - 1 ∧ t.soundPulse = decide (s.st ≠ 0#8)

/-- R67 (derived there from R55 and R70): the step at PC = 0xFFF is Fatal(AddressOutOfRange, 0x1000), the step at
PC ≥ 0x1000 is Fatal(AddressOutOfRange, PC), both with pc0 = PC (R203); a fetch at 0xFFE succeeds and advances PC to
0x1000. -/
def Obligations.FetchOutsideMemoryIsFatal : Prop :=
  ∀ s : State, s.status = .running →
    (s.pc.toNat = 0xFFF → step s = .fault (.addressOutOfRange 0x1000 s.pc)) ∧
    (0x1000 ≤ s.pc.toNat → step s = .fault (.addressOutOfRange s.pc.toNat s.pc)) ∧
    (s.pc.toNat = 0xFFE → ∃ w, fetch16 s = .ok w ∧ (s.fetched w).pc.toNat = 0x1000)

/-- R36, R45, R74 with the model's readings of logs 10 and 12 (a strobe or a stop request of an ended run leaves the block
as it is; a strobe performs no Execution Step): once status is Stopped or Fatal it never changes again. -/
def Obligations.EndedRunNeverChanges : Prop :=
  ∀ s : State, s.status ≠ .running → step s = .next s ∧ strobe s = s ∧ requestStop s = s

/-- Two readings of the model's, derived from R36, R46, R75 and R204. The spec says that a fatal step has no successor
state (D12) and that status becomes Fatal(kind, info); that the block after it is the state before it with only the status
changed, and so with no countdown, is the model's reading, `strobe` (log 10). The spec says that a stop request takes effect
between steps (D21) and that status becomes Stopped; that it is an operation of its own which changes nothing else is the
model's reading, `requestStop` (log 12). -/
def Obligations.FatalStepAndStopSetOnlyStatus : Prop :=
  (∀ (s : State) (f : Fault), step s = .fault f → strobe s = { s with status := .fatal f }) ∧
  (∀ s : State, s.status = .running → requestStop s = { s with status := .stopped })

/-- R183: in every step that does not end fatally, whatever word is at PC, a timer that the step's instruction does not
write goes down by one, floored at 0: the countdown never raises a timer, only FX15 raises DT and only FX18 raises ST. -/
def Obligations.TimersCountDownOncePerStep : Prop :=
  ∀ s t : State, s.status = .running → step s = .next t →
    ((∀ x, s.instrAtPC ≠ some (.writeRegisterIntoDelay x)) → t.dt.toNat = s.dt.toNat - 1) ∧
    ((∀ x, s.instrAtPC ≠ some (.writeRegisterIntoSound x)) → t.st.toNat = s.st.toNat - 1)

/-- R173: the display's only mutators are Clear and Draw; no other instruction, and no timer, changes a pixel. -/
def Obligations.OnlyClearAndDrawChangeDisplay : Prop :=
  ∀ s t : State, step s = .next t → (∀ i, s.instrAtPC = some i → ¬ writesDisplay i) →
    ∀ px py, t.pixel px py = s.pixel px py

/-- R54, R58: FX33 and FX55 are the only instructions that write memory. -/
def Obligations.OnlyBcdAndStoreChangeMemory : Prop :=
  ∀ s t : State, step s = .next t → (∀ i, s.instrAtPC = some i → ¬ writesMemory i) →
    ∀ a, t.peek a = s.peek a

/-- R29, R110: only 2NNN and 00EE reach the call stack. -/
def Obligations.OnlyCallAndReturnChangeStack : Prop :=
  ∀ s t : State, step s = .next t → (∀ i, s.instrAtPC = some i → ¬ reachesStack i) → t.stack = s.stack

/-- R26: the writers of I are ANNN, FX1E, FX29, and FX55 and FX65 under LOADSTORE_INCREMENTS_I. -/
def Obligations.OnlyIndexWritersChangeIndex : Prop :=
  ∀ s t : State, step s = .next t → (∀ i, s.instrAtPC = some i → ¬ writesIndex s.cfg i) → t.i = s.i

/-- R22, R24 (the column of writes; derived there from the instruction rules): a step changes no V register but those R24 gives the instruction at PC, VF
included; an unknown word changes none. -/
def Obligations.StepWritesOnlyListedRegisters : Prop :=
  ∀ s t : State, step s = .next t →
    ∀ r, (∀ i, s.instrAtPC = some i → registersWritten i r = false) → t.reg r = s.reg r

/-- R35, R37: cfg is never written; and no step leaves Running except by a fatal condition. -/
def Obligations.ConfigurationAndStatusSurviveStep : Prop :=
  ∀ s t : State, step s = .next t → t.cfg = s.cfg ∧ t.status = s.status

/-- R203 (the columns "raised by", "info recorded" and, on the spec's decision D13, "code"), R205-R209: an instruction is
never refused, and each fatal condition comes only from the instructions the table names, under the condition it names, with
the information it records; RomTooLarge comes from none, so the codes are 2 to 5. -/
def Obligations.FatalConditionsComeOnlyFromTheirRaisers : Prop :=
  ∀ (i : Instr) (s : State),
    (∀ r, exec i s ≠ .refused r) ∧
    (∀ a p, exec i s = .fault (.addressOutOfRange a p) → 0x1000 ≤ a ∧ p = s.pc - 2#16 ∧
      ((∃ x y n, i = .draw x y n) ∨ (∃ x, i = .bcd x ∨ i = .storeRegisters x ∨ i = .loadRegisters x))) ∧
    (∀ p, exec i s = .fault (.stackUnderflow p) → i = .ret ∧ s.stack = [] ∧ p = s.pc - 2#16) ∧
    (∀ p, exec i s = .fault (.stackOverflow p) →
      (∃ nnn, i = .callSubroutine nnn) ∧ s.cfg.stackLimit = some s.stack.length ∧ p = s.pc - 2#16) ∧
    (∀ b p, exec i s = .fault (.keyIndexOutOfRange b p) → p = s.pc - 2#16 ∧ 0xF < b.toNat ∧
      s.cfg.keyIndexPolicy = .fatal ∧
      ∃ x, (i = .skipIfKeyPressed x ∨ i = .skipIfKeyNotPressed x) ∧ b = s.reg x) ∧
    (∀ n, exec i s ≠ .fault (.romTooLarge n)) ∧
    (∀ f, exec i s = .fault f → f.kind.fatal = true ∧ f.code = match f with
      | .addressOutOfRange _ _ => 2
      | .stackUnderflow _ => 3
      | .stackOverflow _ => 4
      | .keyIndexOutOfRange _ _ => 5
      | .romTooLarge _ => 6)

/-! ## Invariants -/

/-- R50, R55: every step keeps the memory list canonical (addresses strictly rising, all inside the 4096 bytes, no entry
equal to the reset contents), from every state that has it so. -/
def Obligations.StepKeepsMemoryCanonical : Prop :=
  ∀ s t : State, s.memoryCanonical → step s = .next t → t.memoryCanonical

/-- R20, R28: every step keeps PC at most 0x10FE, every return address at most 0x1000, and the stack within
STACK_LIMIT. -/
def Obligations.StepKeepsControlInRange : Prop :=
  ∀ s t : State, s.controlInRange → step s = .next t → t.controlInRange

/-- R51, R243: the state after reset has both invariants. -/
def Obligations.ResetMeetsInvariants : Prop :=
  State.reset.memoryCanonical ∧ State.reset.controlInRange

/-- R240-R243: so has every machine that is constructed, whatever cfg, INIT_V, INIT_I and ROM, even one too large. -/
def Obligations.ConstructionMeetsInvariants : Prop :=
  ∀ (cfg : Config) (initV : Vector Byte 16) (initI : Word) (rom : List Byte),
    (construct cfg initV initI rom).memoryCanonical ∧ (construct cfg initV initI rom).controlInRange

/-! ## Control flow -/

/-- R100, R206: the word 0x00EE exactly is Return; it pops the last entry into PC and changes nothing else; on an empty
stack it is Fatal(StackUnderflow, pc0), with no successor state. -/
def Obligations.ReturnPopsOrUnderflows : Prop :=
  (∀ (strict : Bool) (w : Word), decodeWord strict w = .ok .ret ↔ w = 0x00EE#16) ∧
  (∀ (s : State) (rest : List Word) (a : Word), s.stack = rest ++ [a] →
    exec .ret s = .next { s with pc := a, stack := rest }) ∧
  (∀ s : State, s.stack = [] → exec .ret s = .fault (.stackUnderflow (s.pc - 2#16)))

/-- R101: Jump sets PC to NNN, zero-extended, and changes nothing else. -/
def Obligations.JumpSetsPC : Prop :=
  ∀ (nnn : Imm12) (s : State), ∃ t, exec (.jump nnn) s = .next t ∧ t.pc.toNat = nnn.toNat ∧ t = { s with pc := t.pc }

/-- R102, R207, with STACK_LIMIT of the spec's decision D11: CallSubroutine pushes the already advanced PC and jumps, and changes nothing else, unless STACK_LIMIT
entries are on the stack: then it is Fatal(StackOverflow, pc0). -/
def Obligations.CallPushesOrOverflows : Prop :=
  (∀ (nnn : Imm12) (s : State), s.cfg.stackLimit ≠ some s.stack.length →
    ∃ t, exec (.callSubroutine nnn) s = .next t ∧ t.pc.toNat = nnn.toNat ∧ t.stack = s.stack ++ [s.pc] ∧
      t = { s with pc := t.pc, stack := t.stack }) ∧
  (∀ (nnn : Imm12) (s : State), s.cfg.stackLimit = some s.stack.length →
    exec (.callSubroutine nnn) s = .fault (.stackOverflow (s.pc - 2#16)))

/-- R102, R110: a Return executed with the stack a CallSubroutine left resumes after the call and gives the stack back,
whatever else the subroutine changed. -/
def Obligations.ReturnResumesAfterCall : Prop :=
  ∀ (nnn : Imm12) (s t u : State), exec (.callSubroutine nnn) s = .next t → u.stack = t.stack →
    exec .ret u = .next { u with pc := s.pc, stack := s.stack }

/-- R103, R104: 3XNN adds 2 to PC when VX = NN, 4XNN when VX ≠ NN; nothing else changes, in either case. -/
def Obligations.ImmediateSkips : Prop :=
  ∀ (x : RegIx) (nn : Imm8) (s : State),
    (s.reg x = nn → exec (.skipIfEqual x nn) s = .next { s with pc := s.pc + 2#16 } ∧
      exec (.skipIfNotEqual x nn) s = .next s) ∧
    (s.reg x ≠ nn → exec (.skipIfEqual x nn) s = .next s ∧
      exec (.skipIfNotEqual x nn) s = .next { s with pc := s.pc + 2#16 })

/-- R105, R106: 5XYN adds 2 to PC when VX = VY, 9XYN when VX ≠ VY, whatever N (the spec's decision D7:
the decoder lets N ≠ 0 through unless STRICT_5_9); nothing else changes. -/
def Obligations.RegisterSkips : Prop :=
  ∀ (x y : RegIx) (n : Nibble) (s : State),
    (s.reg x = s.reg y → exec (.skipIfRegEqual x y n) s = .next { s with pc := s.pc + 2#16 } ∧
      exec (.skipIfRegNotEqual x y n) s = .next s) ∧
    (s.reg x ≠ s.reg y → exec (.skipIfRegEqual x y n) s = .next s ∧
      exec (.skipIfRegNotEqual x y n) s = .next { s with pc := s.pc + 2#16 })

/-- R107: JumpWithOffset sets PC to NNN + V0, or NNN + VX with X = NNN[11:8] under JUMP_OFFSET_USES_VX, with no wrap
(the spec's decision D3); nothing else changes. -/
def Obligations.JumpWithOffsetSetsPC : Prop :=
  ∀ (nnn : Imm12) (s : State), ∃ t, exec (.jumpWithOffset nnn) s = .next t ∧ t = { s with pc := t.pc } ∧
    (s.cfg.jumpOffsetUsesVX = false → t.pc.toNat = nnn.toNat + (s.reg 0#4).toNat) ∧
    (∀ x : RegIx, s.cfg.jumpOffsetUsesVX = true → x.toNat = nnn.toNat / 256 →
      t.pc.toNat = nnn.toNat + (s.reg x).toNat)

/-! ## Immediate and index-set -/

/-- R120: 6XNN writes NN into VX and changes nothing else; every register, VF included. -/
def Obligations.SetRegisterWritesImmediate : Prop :=
  ∀ (x : RegIx) (nn : Imm8) (s : State),
    ∃ t, exec (.setRegister x nn) s = .next t ∧ t.reg x = nn ∧ changesOnlyRegs s t [x]

/-- R121: 7XNN adds NN to VX modulo 256 and changes nothing else: no flag, unless X = F, where VF is the destination. -/
def Obligations.AddRegisterWrapsWithoutFlag : Prop :=
  ∀ (x : RegIx) (nn : Imm8) (s : State),
    ∃ t, exec (.addRegister x nn) s = .next t ∧ (t.reg x).toNat = ((s.reg x).toNat + nn.toNat) % 256 ∧
      changesOnlyRegs s t [x]

/-- R122: ANNN sets I to NNN, zero-extended, and changes nothing else. -/
def Obligations.SetIndexWritesImmediate : Prop :=
  ∀ (nnn : Imm12) (s : State),
    ∃ t, exec (.setIndex nnn) s = .next t ∧ t.i.toNat = nnn.toNat ∧ t = { s with i := t.i }

/-- R123 (the spec's decision D6): CXNN sets VX to the step's draw AND NN, for every draw, and changes nothing else. The
draw is a free value of the model (log 1). -/
def Obligations.RandomMasksDraw : Prop :=
  ∀ (x : RegIx) (nn : Imm8) (s : State),
    ∃ t, exec (.random x nn) s = .next t ∧ (∀ k, (t.reg x).getLsbD k = (s.rnd.getLsbD k && nn.getLsbD k)) ∧
      changesOnlyRegs s t [x]

/-! ## ALU -/

/-- R130: 8XY0 copies VY into VX and changes nothing else. -/
def Obligations.CopyMovesRegister : Prop :=
  ∀ (x y : RegIx) (s : State),
    ∃ t, exec (.copy x y) s = .next t ∧ t.reg x = s.reg y ∧ changesOnlyRegs s t [x]

/-- R131, R132, R133: 8XY1, 8XY2, 8XY3 are bitwise OR, AND, XOR into VX and change nothing else: VF is untouched unless
it is VX. -/
def Obligations.BitwiseOperationsLeaveFlag : Prop :=
  ∀ (x y : RegIx) (s : State),
    (∃ t, exec (.bitOr x y) s = .next t ∧ changesOnlyRegs s t [x] ∧
      ∀ k, (t.reg x).getLsbD k = ((s.reg x).getLsbD k || (s.reg y).getLsbD k)) ∧
    (∃ t, exec (.bitAnd x y) s = .next t ∧ changesOnlyRegs s t [x] ∧
      ∀ k, (t.reg x).getLsbD k = ((s.reg x).getLsbD k && (s.reg y).getLsbD k)) ∧
    (∃ t, exec (.bitXor x y) s = .next t ∧ changesOnlyRegs s t [x] ∧
      ∀ k, (t.reg x).getLsbD k = ((s.reg x).getLsbD k ^^ (s.reg y).getLsbD k))

/-- R134, R140 (operands first: the spec's decision D30): 8XY4 leaves the sum modulo 256 in VX and the carry in VF; with X = F the flag is what VF holds; old VF is
the operand when X or Y is F; nothing else changes. -/
def Obligations.AddSetsCarry : Prop :=
  ∀ (x y : RegIx) (s : State),
    ∃ t, exec (.add x y) s = .next t ∧
      (x ≠ vf → (t.reg x).toNat = ((s.reg x).toNat + (s.reg y).toNat) % 256) ∧
      t.reg vf = (if (s.reg x).toNat + (s.reg y).toNat > 255 then 1#8 else 0#8) ∧
      changesOnlyRegs s t [x, vf]

/-- R135, R137, R140 (operands first: D30): 8XY5 leaves VX - VY and 8XY7 leaves VY - VX modulo 256 in VX, and VF is 1 exactly when the minuend
is at least the subtrahend; with X = F the flag is what VF holds; nothing else changes. -/
def Obligations.SubtractsSetNoBorrow : Prop :=
  ∀ (x y : RegIx) (s : State),
    (∃ t, exec (.subtract x y) s = .next t ∧
      (x ≠ vf → (t.reg x).toNat = ((s.reg x).toNat + 256 - (s.reg y).toNat) % 256) ∧
      t.reg vf = (if (s.reg x).toNat ≥ (s.reg y).toNat then 1#8 else 0#8) ∧ changesOnlyRegs s t [x, vf]) ∧
    (∃ t, exec (.subtractReverse x y) s = .next t ∧
      (x ≠ vf → (t.reg x).toNat = ((s.reg y).toNat + 256 - (s.reg x).toNat) % 256) ∧
      t.reg vf = (if (s.reg y).toNat ≥ (s.reg x).toNat then 1#8 else 0#8) ∧ changesOnlyRegs s t [x, vf])

/-- R136, R138, R140 (operands first: D30): 8XY6 halves and 8XYE doubles (modulo 256) the source value, which is VX, or VY under
SHIFT_COPIES_VY; VF is the bit shifted out, also when X = F; nothing else changes. -/
def Obligations.ShiftsSetBitShiftedOut : Prop :=
  ∀ (x y : RegIx) (s : State) (b : Byte), b = (if s.cfg.shiftCopiesVY then s.reg y else s.reg x) →
    (∃ t, exec (.shiftRight x y) s = .next t ∧ (x ≠ vf → (t.reg x).toNat = b.toNat / 2) ∧
      (t.reg vf).toNat = b.toNat % 2 ∧ changesOnlyRegs s t [x, vf]) ∧
    (∃ t, exec (.shiftLeft x y) s = .next t ∧ (x ≠ vf → (t.reg x).toNat = b.toNat * 2 % 256) ∧
      (t.reg vf).toNat = b.toNat / 128 ∧ changesOnlyRegs s t [x, vf])

/-! ## Memory and index -/

/-- R150: FX1E adds VX to I modulo 2^16 (the spec's decision D4); VF becomes 1 when the exact sum exceeds 0xFFF and is not written otherwise;
nothing else changes. -/
def Obligations.AddIndexSetsFlagOnlyOnOverflow : Prop :=
  ∀ (x : RegIx) (s : State),
    ∃ t, exec (.addIndex x) s = .next t ∧ t.i.toNat = (s.i.toNat + (s.reg x).toNat) % 65536 ∧
      t.reg vf = (if s.i.toNat + (s.reg x).toNat > 0xFFF then 1#8 else s.reg vf) ∧
      t = { s with v := t.v, i := t.i } ∧ ∀ r, r ≠ vf → t.reg r = s.reg r

/-- R151: FX29 sets I to 0x050 + 5 * (VX AND 0xF) and changes nothing else. -/
def Obligations.FontAddressOfLowNibble : Prop :=
  ∀ (x : RegIx) (s : State),
    ∃ t, exec (.fontCharacterAddress x) s = .next t ∧ t.i.toNat = 0x50 + 5 * ((s.reg x).toNat % 16) ∧
      t = { s with i := t.i }

/-- R152: when I, I+1, I+2 lie in memory, FX33 stores the hundreds, tens and ones digits of VX there; no other byte, and
nothing else, changes. -/
def Obligations.BcdStoresDigits : Prop :=
  ∀ (x : RegIx) (s : State), s.ea 2 < memSize →
    ∃ t, exec (.bcd x) s = .next t ∧
      (t.peek (s.ea 0)).toNat = (s.reg x).toNat / 100 ∧
      (t.peek (s.ea 1)).toNat = (s.reg x).toNat / 10 % 10 ∧
      (t.peek (s.ea 2)).toNat = (s.reg x).toNat % 10 ∧
      memorySameOutside s t (s.ea 0) 3 ∧ t = { s with mem := t.mem }

/-- R152, R205, R210 (no successor state: the spec's decision D12): otherwise FX33 is Fatal(AddressOutOfRange) at the first of I, I+1, I+2 that is ≥ 0x1000. -/
def Obligations.BcdFaultsAtFirstBadAddress : Prop :=
  ∀ (x : RegIx) (s : State) (k : Nat), k ≤ 2 → 0x1000 ≤ s.ea k → (∀ j, j < k → s.ea j < 0x1000) →
    exec (.bcd x) s = .fault (.addressOutOfRange (s.ea k) (s.pc - 2#16))

/-- R153, R154: when I..I+X lie in memory, FX55 stores V0..VX there in order; no other byte changes; I advances by X + 1
modulo 2^16 (the spec's decision D4) under LOADSTORE_INCREMENTS_I and is unchanged otherwise; nothing else changes. -/
def Obligations.StoreRegistersWritesBlock : Prop :=
  ∀ (x : RegIx) (s : State), s.ea x.toNat < memSize →
    ∃ t, exec (.storeRegisters x) s = .next t ∧
      (∀ r : RegIx, r.toNat ≤ x.toNat → t.peek (s.ea r.toNat) = s.reg r) ∧
      memorySameOutside s t (s.ea 0) (x.toNat + 1) ∧
      t.i.toNat = (if s.cfg.loadStoreIncrementsI then (s.i.toNat + x.toNat + 1) % 65536 else s.i.toNat) ∧
      t = { s with mem := t.mem, i := t.i }

/-- R153, R155: when I..I+X lie in memory, FX65 loads V0..VX from there; no other register changes; I as for FX55; memory
and everything else is unchanged. -/
def Obligations.LoadRegistersReadsBlock : Prop :=
  ∀ (x : RegIx) (s : State), s.ea x.toNat < memSize →
    ∃ t, exec (.loadRegisters x) s = .next t ∧
      (∀ r : RegIx, r.toNat ≤ x.toNat → t.reg r = s.peek (s.ea r.toNat)) ∧
      (∀ r : RegIx, x.toNat < r.toNat → t.reg r = s.reg r) ∧
      t.i.toNat = (if s.cfg.loadStoreIncrementsI then (s.i.toNat + x.toNat + 1) % 65536 else s.i.toNat) ∧
      t = { s with v := t.v, i := t.i }

/-- R154, R155, R205, R210 (no successor state: D12): FX55 and FX65 are Fatal(AddressOutOfRange, I + k) at the first k ≤ X with I + k ≥ 0x1000. -/
def Obligations.BlockTransfersFaultAtFirstBadAddress : Prop :=
  ∀ (x : RegIx) (s : State) (k : Nat), k ≤ x.toNat → 0x1000 ≤ s.ea k → (∀ j, j < k → s.ea j < 0x1000) →
    exec (.storeRegisters x) s = .fault (.addressOutOfRange (s.ea k) (s.pc - 2#16)) ∧
    exec (.loadRegisters x) s = .fault (.addressOutOfRange (s.ea k) (s.pc - 2#16))

/-- R156: after FX55, whatever V0..VF become, FX65 with the same X and the I that FX55 started from restores V0..VX; with
LOADSTORE_INCREMENTS_I off, that I is the one FX55 leaves. -/
def Obligations.StoreThenLoadRestoresRegisters : Prop :=
  ∀ (x : RegIx) (s u : State) (v : Vector Byte 16), exec (.storeRegisters x) s = .next u →
    (∃ w, exec (.loadRegisters x) { u with v := v, i := s.i } = .next w ∧
      ∀ r : RegIx, r.toNat ≤ x.toNat → w.reg r = s.reg r) ∧
    (s.cfg.loadStoreIncrementsI = false → u.i = s.i)

/-! ## Display -/

/-- R170: the word 0x00E0 exactly is Clear; it makes every pixel false and changes nothing else. -/
def Obligations.ClearTurnsEveryPixelOff : Prop :=
  (∀ (strict : Bool) (w : Word), decodeWord strict w = .ok .clear ↔ w = 0x00E0#16) ∧
  ∀ s : State, ∃ t, exec .clear s = .next t ∧ (∀ px py, t.pixel px py = false) ∧ t = { s with disp := t.disp }

/-- R171, R172, with the details of the spec's decision D10 (coordinates read first, rows past the bottom not read, bit 7
leftmost, N = 0 draws nothing): when the sprite rows above the bottom edge lie in memory, DXYN XORs exactly the sprite's on-screen 1-bits
into the display, from column VX mod 64 and row VY mod 32 (read before VF is written), clipped at both edges; VF is 1 when
a lit pixel was turned off and 0 otherwise; nothing else changes. -/
def Obligations.DrawXorsSpriteAndSetsCollision : Prop :=
  ∀ (x y : RegIx) (n : Nibble) (s : State), s.spriteInMemory y n →
    ∃ t, exec (.draw x y n) s = .next t ∧
      (∀ px py, px < 64 → py < 32 →
        t.pixel px py = (s.pixel px py ^^ s.spriteBit (s.drawColumn x) (s.drawRow y) n.toNat px py)) ∧
      ((∃ px py, px < 64 ∧ py < 32 ∧ s.pixel px py = true ∧
          s.spriteBit (s.drawColumn x) (s.drawRow y) n.toNat px py = true) → t.reg vf = 1#8) ∧
      ((∀ px py, px < 64 → py < 32 → s.pixel px py = true →
          s.spriteBit (s.drawColumn x) (s.drawRow y) n.toNat px py = false) → t.reg vf = 0#8) ∧
      t = { s with v := t.v, disp := t.disp } ∧ ∀ r, r ≠ vf → t.reg r = s.reg r

/-- R171, R205 (D10, D12): DXYN is Fatal(AddressOutOfRange, I + r) at the first row r above the bottom edge whose byte is outside
memory. -/
def Obligations.DrawFaultsAtFirstBadRow : Prop :=
  ∀ (x y : RegIx) (n : Nibble) (s : State) (r : Nat), r < n.toNat → s.drawRow y + r < 32 → 0x1000 ≤ s.ea r →
    (∀ j, j < r → s.ea j < 0x1000) →
    exec (.draw x y n) s = .fault (.addressOutOfRange (s.ea r) (s.pc - 2#16))

/-- R171: drawing the same sprite twice at the same place restores the display (X and Y not F, whose register the first
draw writes; derived from the pseudocode, whose R171 corner case this bounds). On an all-dark display a sprite that lit a pixel sets VF the second time. -/
def Obligations.DrawTwiceRestoresDisplay : Prop :=
  ∀ (x y : RegIx) (n : Nibble) (s u : State), x ≠ vf → y ≠ vf → exec (.draw x y n) s = .next u →
    ∃ w, exec (.draw x y n) u = .next w ∧ w.disp = s.disp ∧
      ((∀ px py, s.pixel px py = false) → u.disp ≠ s.disp → w.reg vf = 1#8)

/-! ## Timers -/

/-- R180, R181, R182: FX07 copies DT into VX, FX15 VX into DT, FX18 VX into ST; each changes nothing else. -/
def Obligations.TimerTransfers : Prop :=
  ∀ (x : RegIx) (s : State),
    (∃ t, exec (.readDelayIntoRegister x) s = .next t ∧ t.reg x = s.dt ∧ changesOnlyRegs s t [x]) ∧
    (∃ t, exec (.writeRegisterIntoDelay x) s = .next t ∧ t = { s with dt := s.reg x }) ∧
    (∃ t, exec (.writeRegisterIntoSound x) s = .next t ∧ t = { s with st := s.reg x })

/-- R180, R181, R182 with R74, R211 and the spec's decision D2 (countdown after dispatch): at the end of the step the same step's countdown has applied: FX15 leaves
DT = VX - 1 floored at 0, FX18 leaves ST = VX - 1 floored at 0 and pulses exactly when VX ≠ 0, FX07 leaves the DT it read
in VX. -/
def Obligations.TimerTransfersWithCountdown : Prop :=
  ∀ (x : RegIx) (s : State), s.status = .running →
    (s.instrAtPC = some (.readDelayIntoRegister x) →
      ∃ t, step s = .next t ∧ t.reg x = s.dt ∧ t.dt.toNat = s.dt.toNat - 1) ∧
    (s.instrAtPC = some (.writeRegisterIntoDelay x) →
      ∃ t, step s = .next t ∧ t.dt.toNat = (s.reg x).toNat - 1) ∧
    (s.instrAtPC = some (.writeRegisterIntoSound x) →
      ∃ t, step s = .next t ∧ t.st.toNat = (s.reg x).toNat - 1 ∧ t.soundPulse = decide (s.reg x ≠ 0#8))

/-! ## Input -/

/-- R190, R191, R193 (KEY_INDEX_POLICY: the spec's decision D8): EX9E skips when key VX is down and EXA1 when it is up, by the step's one sample; VX > 0xF tests key
VX AND 0xF under mask_low_nibble; nothing else changes. -/
def Obligations.KeySkipsReadSample : Prop :=
  ∀ (x : RegIx) (s : State), (s.reg x).toNat ≤ 0xF ∨ s.cfg.keyIndexPolicy = .maskLowNibble →
    (s.keys.getLsbD ((s.reg x).toNat % 16) = true →
      exec (.skipIfKeyPressed x) s = .next { s with pc := s.pc + 2#16 } ∧
      exec (.skipIfKeyNotPressed x) s = .next s) ∧
    (s.keys.getLsbD ((s.reg x).toNat % 16) = false →
      exec (.skipIfKeyPressed x) s = .next s ∧
      exec (.skipIfKeyNotPressed x) s = .next { s with pc := s.pc + 2#16 })

/-- R193, R208 (the spec's decision D8): under KEY_INDEX_POLICY = fatal, EX9E and EXA1 with VX > 0xF are Fatal(KeyIndexOutOfRange, VX). -/
def Obligations.KeyIndexOutOfRangeIsFatal : Prop :=
  ∀ (x : RegIx) (s : State), 0xF < (s.reg x).toNat → s.cfg.keyIndexPolicy = .fatal →
    exec (.skipIfKeyPressed x) s = .fault (.keyIndexOutOfRange (s.reg x) (s.pc - 2#16)) ∧
    exec (.skipIfKeyNotPressed x) s = .fault (.keyIndexOutOfRange (s.reg x) (s.pc - 2#16))

/-- R192 (the spec's decision D9): FX0A with no key down takes PC back by 2 and changes nothing else; else it writes one
of the down keys into VX and changes nothing else; which of several is a free value (log 2). A whole step whose sample the
host has fixed (log 1): with no key in it, PC and the V registers are as they were; with a key in it, PC is past the FX0A and
VX is one of its keys; both timers count down in either. -/
def Obligations.KeyWaitRewindsOrLatches : Prop :=
  ∀ (x : RegIx) (s : State),
    (s.keys = 0#16 → exec (.blockingKeyWait x) s = .next { s with pc := s.pc - 2#16 }) ∧
    (s.keys ≠ 0#16 → ∃ t k, exec (.blockingKeyWait x) s = .next t ∧ k < 16 ∧ s.keys.getLsbD k = true ∧
      (t.reg x).toNat = k ∧ changesOnlyRegs s t [x]) ∧
    (∀ inp rest, s.status = .running → s.instrAtPC = some (.blockingKeyWait x) → s.inputs = inp :: rest →
      inp.keys = 0#16 → ∃ t, step s = .next t ∧ t.pc = s.pc ∧ t.v = s.v ∧ t.dt.toNat = s.dt.toNat - 1 ∧
        t.st.toNat = s.st.toNat - 1) ∧
    (∀ inp rest, s.status = .running → s.instrAtPC = some (.blockingKeyWait x) → s.inputs = inp :: rest →
      inp.keys ≠ 0#16 → ∃ t k, step s = .next t ∧ t.pc = s.pc + 2#16 ∧ k < 16 ∧ inp.keys.getLsbD k = true ∧
        (t.reg x).toNat = k ∧ t.dt.toNat = s.dt.toNat - 1 ∧ t.st.toNat = s.st.toNat - 1)

/-! ## Reset -/

/-- R243 (the outputs' values there are the spec's decision D1): the register state after reset, for every cfg, INIT_V,
INIT_I and ROM; status is Running when the ROM is not too large. diag_word is unspecified there and is not stated. -/
def Obligations.RegisterStateAfterReset : Prop :=
  ∀ (cfg : Config) (initV : Vector Byte 16) (initI : Word) (rom : List Byte) (s : State),
    s = construct cfg initV initI rom →
    s.pc = 0x200#16 ∧ s.stack = [] ∧ s.dt = 0#8 ∧ s.st = 0#8 ∧ (∀ px py, s.pixel px py = false) ∧
      s.v = initV ∧ s.i = initI ∧ s.cfg = cfg ∧ s.soundPulse = false ∧ s.unknownReport = none ∧
      (rom.length ≤ 3584 → s.status = .running)

/-- R209: a ROM of more than 3584 bytes is fatal at reset, and no step executes: every strobe leaves the block as it is
(the model's reading of a strobe of an ended run, log 10). -/
def Obligations.OversizedRomIsFatalAtReset : Prop :=
  ∀ (cfg : Config) (initV : Vector Byte 16) (initI : Word) (rom : List Byte), 3584 < rom.length →
    (construct cfg initV initI rom).status = .fatal (.romTooLarge rom.length) ∧
    step (construct cfg initV initI rom) = .next (construct cfg initV initI rom)

/-- R51, R241, R242: after construction with a ROM of at most 3584 bytes, memory holds FONT at 0x050..0x09F, the ROM from
0x200, and 0 elsewhere. -/
def Obligations.MemoryAfterReset : Prop :=
  ∀ (cfg : Config) (initV : Vector Byte 16) (initI : Word) (rom : List Byte), rom.length ≤ 3584 →
    ∀ a, a < 0x1000 → (construct cfg initV initI rom).peek a =
      (if 0x050 ≤ a ∧ a < 0x0A0 then cfg.font.toList.getD (a - 0x050) 0#8
       else if 0x200 ≤ a ∧ a < 0x200 + rom.length then rom.getD (a - 0x200) 0#8 else 0#8)

/-- R243 with the model's named values (logs 3, 4, 5, 6): State.reset is the construction with the default cfg,
INIT_V = 0, INIT_I = 0 and an empty ROM. -/
def Obligations.ResetIsDefaultConstruction : Prop :=
  construct defaultConfig (Vector.replicate 16 0#8) 0x0000#16 [] = State.reset
end

