-- ==== Sys2Proof/Laws/DecodeFields.lean ====
section
/-! SUPPORT. The fields of a word built from its parts, a word rebuilt from its fields, and a word under the masks of R90:
what the decoder's proofs rest on. -/

namespace Sys2Proof

/-! ## Fields of a word built from its parts -/

@[simp] theorem fieldF_append_nibbles (f x y n : BitVec 4) : fieldF (f ++ x ++ y ++ n) = f := by
  apply BitVec.eq_of_getLsbD_eq; intro i hi
  simp only [fieldF, BitVec.getLsbD_extractLsb', BitVec.getLsbD_append]
  interval_cases i <;> simp

@[simp] theorem fieldX_append_nibbles (f x y n : BitVec 4) : fieldX (f ++ x ++ y ++ n) = x := by
  apply BitVec.eq_of_getLsbD_eq; intro i hi
  simp only [fieldX, BitVec.getLsbD_extractLsb', BitVec.getLsbD_append]
  interval_cases i <;> simp

@[simp] theorem fieldY_append_nibbles (f x y n : BitVec 4) : fieldY (f ++ x ++ y ++ n) = y := by
  apply BitVec.eq_of_getLsbD_eq; intro i hi
  simp only [fieldY, BitVec.getLsbD_extractLsb', BitVec.getLsbD_append]
  interval_cases i <;> simp

@[simp] theorem fieldN_append_nibbles (f x y n : BitVec 4) : fieldN (f ++ x ++ y ++ n) = n := by
  apply BitVec.eq_of_getLsbD_eq; intro i hi
  simp only [fieldN, BitVec.getLsbD_extractLsb', BitVec.getLsbD_append]
  interval_cases i <;> simp

@[simp] theorem fieldF_append_byte (f x : BitVec 4) (nn : BitVec 8) : fieldF (f ++ x ++ nn) = f := by
  apply BitVec.eq_of_getLsbD_eq; intro i hi
  simp only [fieldF, BitVec.getLsbD_extractLsb', BitVec.getLsbD_append]
  interval_cases i <;> simp

@[simp] theorem fieldX_append_byte (f x : BitVec 4) (nn : BitVec 8) : fieldX (f ++ x ++ nn) = x := by
  apply BitVec.eq_of_getLsbD_eq; intro i hi
  simp only [fieldX, BitVec.getLsbD_extractLsb', BitVec.getLsbD_append]
  interval_cases i <;> simp

@[simp] theorem fieldNN_append_byte (f x : BitVec 4) (nn : BitVec 8) : fieldNN (f ++ x ++ nn) = nn := by
  apply BitVec.eq_of_getLsbD_eq; intro i hi
  simp only [fieldNN, BitVec.getLsbD_extractLsb', BitVec.getLsbD_append]
  interval_cases i <;> simp

@[simp] theorem fieldF_append_imm12 (f : BitVec 4) (nnn : BitVec 12) : fieldF (f ++ nnn) = f := by
  apply BitVec.eq_of_getLsbD_eq; intro i hi
  simp only [fieldF, BitVec.getLsbD_extractLsb', BitVec.getLsbD_append]
  interval_cases i <;> simp

@[simp] theorem fieldNNN_append_imm12 (f : BitVec 4) (nnn : BitVec 12) : fieldNNN (f ++ nnn) = nnn := by
  apply BitVec.eq_of_getLsbD_eq; intro i hi
  simp only [fieldNNN, BitVec.getLsbD_extractLsb', BitVec.getLsbD_append]
  interval_cases i <;> simp

/-! ## Bytes of a word (R56) -/

@[simp] theorem hiByte_wordOfBytes (hi lo : Byte) : hiByte (wordOfBytes hi lo) = hi := by
  apply BitVec.eq_of_getLsbD_eq; intro i hi
  simp only [hiByte, wordOfBytes, BitVec.getLsbD_extractLsb', BitVec.getLsbD_append]
  interval_cases i <;> simp

@[simp] theorem loByte_wordOfBytes (hi lo : Byte) : loByte (wordOfBytes hi lo) = lo := by
  apply BitVec.eq_of_getLsbD_eq; intro i hi
  simp only [loByte, wordOfBytes, BitVec.getLsbD_extractLsb', BitVec.getLsbD_append]
  interval_cases i <;> simp

@[simp] theorem wordOfBytes_hiByte_loByte (w : Word) : wordOfBytes (hiByte w) (loByte w) = w := by
  apply BitVec.eq_of_getLsbD_eq; intro i hi
  simp only [hiByte, loByte, wordOfBytes, BitVec.getLsbD_extractLsb', BitVec.getLsbD_append]
  interval_cases i <;> simp

/-! ## A word rebuilt from its fields -/

theorem append_fields_nibbles (w : Word) : fieldF w ++ fieldX w ++ fieldY w ++ fieldN w = w := by
  apply BitVec.eq_of_getLsbD_eq; intro i hi
  simp only [fieldF, fieldX, fieldY, fieldN, BitVec.getLsbD_extractLsb', BitVec.getLsbD_append]
  interval_cases i <;> simp

theorem append_fields_byte (w : Word) : fieldF w ++ fieldX w ++ fieldNN w = w := by
  apply BitVec.eq_of_getLsbD_eq; intro i hi
  simp only [fieldF, fieldX, fieldNN, BitVec.getLsbD_extractLsb', BitVec.getLsbD_append]
  interval_cases i <;> simp

theorem append_fields_imm12 (w : Word) : fieldF w ++ fieldNNN w = w := by
  apply BitVec.eq_of_getLsbD_eq; intro i hi
  simp only [fieldF, fieldNNN, BitVec.getLsbD_extractLsb', BitVec.getLsbD_append]
  interval_cases i <;> simp

/-! ## A word under the masks of R90 -/

theorem and_mask_F000 (w : Word) : w &&& 0xF000#16 = fieldF w ++ 0#12 := by
  apply BitVec.eq_of_getLsbD_eq; intro i hi
  simp only [fieldF, BitVec.getLsbD_and, BitVec.getLsbD_extractLsb', BitVec.getLsbD_append]
  interval_cases i <;> simp

theorem and_mask_F00F (w : Word) : w &&& 0xF00F#16 = fieldF w ++ 0#8 ++ fieldN w := by
  apply BitVec.eq_of_getLsbD_eq; intro i hi
  simp only [fieldF, fieldN, BitVec.getLsbD_and, BitVec.getLsbD_extractLsb', BitVec.getLsbD_append]
  interval_cases i <;> simp

theorem and_mask_F0FF (w : Word) : w &&& 0xF0FF#16 = fieldF w ++ 0#4 ++ fieldNN w := by
  apply BitVec.eq_of_getLsbD_eq; intro i hi
  simp only [fieldF, fieldNN, BitVec.getLsbD_and, BitVec.getLsbD_extractLsb', BitVec.getLsbD_append]
  interval_cases i <;> simp

theorem and_mask_FFFF (w : Word) : w &&& 0xFFFF#16 = w := by
  have : (0xFFFF#16 : Word) = BitVec.allOnes 16 := rfl
  rw [this, BitVec.and_allOnes]

theorem and_mask_F000_eq_iff (w : Word) (f : BitVec 4) : w &&& 0xF000#16 = f ++ 0#12 ↔ fieldF w = f := by
  rw [and_mask_F000]
  constructor
  · intro h; simpa using congrArg fieldF h
  · rintro rfl; rfl

theorem and_mask_F00F_eq_iff (w : Word) (f n : BitVec 4) :
    w &&& 0xF00F#16 = f ++ 0#8 ++ n ↔ fieldF w = f ∧ fieldN w = n := by
  rw [and_mask_F00F]
  constructor
  · intro h
    have e : ∀ a b : BitVec 4, (a ++ 0#8 ++ b : Word) = a ++ 0#4 ++ 0#4 ++ b := by decide
    rw [e, e] at h
    exact ⟨by simpa using congrArg fieldF h, by simpa using congrArg fieldN h⟩
  · rintro ⟨rfl, rfl⟩; rfl

theorem and_mask_F0FF_eq_iff (w : Word) (f : BitVec 4) (nn : BitVec 8) :
    w &&& 0xF0FF#16 = f ++ 0#4 ++ nn ↔ fieldF w = f ∧ fieldNN w = nn := by
  rw [and_mask_F0FF]
  constructor
  · intro h
    exact ⟨by simpa using congrArg fieldF h, by simpa using congrArg fieldNN h⟩
  · rintro ⟨rfl, rfl⟩; rfl

theorem eq_append_imm12_iff (w : Word) (f : BitVec 4) (nnn : BitVec 12) :
    w = f ++ nnn ↔ fieldF w = f ∧ fieldNNN w = nnn := by
  constructor
  · rintro rfl; simp
  · rintro ⟨rfl, rfl⟩; rw [append_fields_imm12]

/-! ## The decoder, class by class -/

/-- The class-0 discriminant (R86). -/
theorem decodeClass0_ok {w : Word} {i : Instr} (h : decodeClass0 w = .ok i) :
    (fieldNNN w = 0x0E0#12 ∧ i = .clear) ∨ (fieldNNN w = 0x0EE#12 ∧ i = .ret) := by
  unfold decodeClass0 at h
  split at h
  · next hw => cases h; exact .inl ⟨hw, rfl⟩
  · split at h
    · next hw => cases h; exact .inr ⟨hw, rfl⟩
    · cases h

/-- Classes 5 and 9 (R92). -/
theorem decodeClass59_ok {strict : Bool} {make : RegIx → RegIx → Nibble → Instr} {w : Word} {i : Instr}
    (h : decodeClass59 strict make w = .ok i) :
    lowNibbleAllowed strict (fieldN w) = true ∧ i = make (fieldX w) (fieldY w) (fieldN w) := by
  unfold decodeClass59 at h
  split at h
  · next hw => cases h; exact ⟨hw, rfl⟩
  · cases h

/-- The class-E discriminant (R88). -/
theorem decodeClassE_ok {w : Word} {i : Instr} (h : decodeClassE w = .ok i) :
    (fieldNN w = 0x9E#8 ∧ i = .skipIfKeyPressed (fieldX w)) ∨
      (fieldNN w = 0xA1#8 ∧ i = .skipIfKeyNotPressed (fieldX w)) := by
  unfold decodeClassE at h
  split at h
  · next hw => cases h; exact .inl ⟨hw, rfl⟩
  · split at h
    · next hw => cases h; exact .inr ⟨hw, rfl⟩
    · cases h

end Sys2Proof
end

