-- ==== Sys2Proof/Laws/State.lean ====
section
/-! SUPPORT. The small lemmas of State: one per field per update, and the derived reads (`reg`, `peek`, `pixel`, `pc0`,
`ea`) of every update, so that no proof unfolds a record update. -/

namespace Sys2Proof.Machine

/-! ### setReg -/

@[simp] theorem State.setReg_v (s : State) (x : RegIx) (b : Byte) : (s.setReg x b).v = s.v.set x.toNat b x.isLt := rfl
@[simp] theorem State.setReg_i (s : State) (x : RegIx) (b : Byte) : (s.setReg x b).i = s.i := rfl
@[simp] theorem State.setReg_pc (s : State) (x : RegIx) (b : Byte) : (s.setReg x b).pc = s.pc := rfl
@[simp] theorem State.setReg_stack (s : State) (x : RegIx) (b : Byte) : (s.setReg x b).stack = s.stack := rfl
@[simp] theorem State.setReg_dt (s : State) (x : RegIx) (b : Byte) : (s.setReg x b).dt = s.dt := rfl
@[simp] theorem State.setReg_st (s : State) (x : RegIx) (b : Byte) : (s.setReg x b).st = s.st := rfl
@[simp] theorem State.setReg_disp (s : State) (x : RegIx) (b : Byte) : (s.setReg x b).disp = s.disp := rfl
@[simp] theorem State.setReg_mem (s : State) (x : RegIx) (b : Byte) : (s.setReg x b).mem = s.mem := rfl
@[simp] theorem State.setReg_status (s : State) (x : RegIx) (b : Byte) : (s.setReg x b).status = s.status := rfl
@[simp] theorem State.setReg_diagWord (s : State) (x : RegIx) (b : Byte) : (s.setReg x b).diagWord = s.diagWord := rfl
@[simp] theorem State.setReg_cfg (s : State) (x : RegIx) (b : Byte) : (s.setReg x b).cfg = s.cfg := rfl
@[simp] theorem State.setReg_keys (s : State) (x : RegIx) (b : Byte) : (s.setReg x b).keys = s.keys := rfl
@[simp] theorem State.setReg_rnd (s : State) (x : RegIx) (b : Byte) : (s.setReg x b).rnd = s.rnd := rfl
@[simp] theorem State.setReg_soundPulse (s : State) (x : RegIx) (b : Byte) : (s.setReg x b).soundPulse = s.soundPulse := rfl
@[simp] theorem State.setReg_unknownReport (s : State) (x : RegIx) (b : Byte) : (s.setReg x b).unknownReport = s.unknownReport := rfl
@[simp] theorem State.setReg_inputs (s : State) (x : RegIx) (b : Byte) : (s.setReg x b).inputs = s.inputs := rfl
@[simp] theorem State.setReg_draws (s : State) (x : RegIx) (b : Byte) : (s.setReg x b).draws = s.draws := rfl
@[simp] theorem State.peek_setReg (s : State) (x : RegIx) (b : Byte) (a : Nat) : (s.setReg x b).peek a = s.peek a := rfl
@[simp] theorem State.pixel_setReg (s : State) (x : RegIx) (b : Byte) (px py : Nat) : (s.setReg x b).pixel px py = s.pixel px py := rfl
@[simp] theorem State.pc0_setReg (s : State) (x : RegIx) (b : Byte) : (s.setReg x b).pc0 = s.pc0 := rfl
@[simp] theorem State.ea_setReg (s : State) (x : RegIx) (b : Byte) (k : Nat) : (s.setReg x b).ea k = s.ea k := rfl

/-! ### setVF -/

@[simp] theorem State.setVF_v (s : State) (b : Byte) : (s.setVF b).v = s.v.set vf.toNat b vf.isLt := rfl
@[simp] theorem State.setVF_i (s : State) (b : Byte) : (s.setVF b).i = s.i := rfl
@[simp] theorem State.setVF_pc (s : State) (b : Byte) : (s.setVF b).pc = s.pc := rfl
@[simp] theorem State.setVF_stack (s : State) (b : Byte) : (s.setVF b).stack = s.stack := rfl
@[simp] theorem State.setVF_dt (s : State) (b : Byte) : (s.setVF b).dt = s.dt := rfl
@[simp] theorem State.setVF_st (s : State) (b : Byte) : (s.setVF b).st = s.st := rfl
@[simp] theorem State.setVF_disp (s : State) (b : Byte) : (s.setVF b).disp = s.disp := rfl
@[simp] theorem State.setVF_mem (s : State) (b : Byte) : (s.setVF b).mem = s.mem := rfl
@[simp] theorem State.setVF_status (s : State) (b : Byte) : (s.setVF b).status = s.status := rfl
@[simp] theorem State.setVF_diagWord (s : State) (b : Byte) : (s.setVF b).diagWord = s.diagWord := rfl
@[simp] theorem State.setVF_cfg (s : State) (b : Byte) : (s.setVF b).cfg = s.cfg := rfl
@[simp] theorem State.setVF_keys (s : State) (b : Byte) : (s.setVF b).keys = s.keys := rfl
@[simp] theorem State.setVF_rnd (s : State) (b : Byte) : (s.setVF b).rnd = s.rnd := rfl
@[simp] theorem State.setVF_soundPulse (s : State) (b : Byte) : (s.setVF b).soundPulse = s.soundPulse := rfl
@[simp] theorem State.setVF_unknownReport (s : State) (b : Byte) : (s.setVF b).unknownReport = s.unknownReport := rfl
@[simp] theorem State.setVF_inputs (s : State) (b : Byte) : (s.setVF b).inputs = s.inputs := rfl
@[simp] theorem State.setVF_draws (s : State) (b : Byte) : (s.setVF b).draws = s.draws := rfl
@[simp] theorem State.peek_setVF (s : State) (b : Byte) (a : Nat) : (s.setVF b).peek a = s.peek a := rfl
@[simp] theorem State.pixel_setVF (s : State) (b : Byte) (px py : Nat) : (s.setVF b).pixel px py = s.pixel px py := rfl
@[simp] theorem State.pc0_setVF (s : State) (b : Byte) : (s.setVF b).pc0 = s.pc0 := rfl
@[simp] theorem State.ea_setVF (s : State) (b : Byte) (k : Nat) : (s.setVF b).ea k = s.ea k := rfl

/-! ### setV -/

@[simp] theorem State.setV_v (s : State) (v : Vector Byte 16) : (s.setV v).v = v := rfl
@[simp] theorem State.setV_i (s : State) (v : Vector Byte 16) : (s.setV v).i = s.i := rfl
@[simp] theorem State.setV_pc (s : State) (v : Vector Byte 16) : (s.setV v).pc = s.pc := rfl
@[simp] theorem State.setV_stack (s : State) (v : Vector Byte 16) : (s.setV v).stack = s.stack := rfl
@[simp] theorem State.setV_dt (s : State) (v : Vector Byte 16) : (s.setV v).dt = s.dt := rfl
@[simp] theorem State.setV_st (s : State) (v : Vector Byte 16) : (s.setV v).st = s.st := rfl
@[simp] theorem State.setV_disp (s : State) (v : Vector Byte 16) : (s.setV v).disp = s.disp := rfl
@[simp] theorem State.setV_mem (s : State) (v : Vector Byte 16) : (s.setV v).mem = s.mem := rfl
@[simp] theorem State.setV_status (s : State) (v : Vector Byte 16) : (s.setV v).status = s.status := rfl
@[simp] theorem State.setV_diagWord (s : State) (v : Vector Byte 16) : (s.setV v).diagWord = s.diagWord := rfl
@[simp] theorem State.setV_cfg (s : State) (v : Vector Byte 16) : (s.setV v).cfg = s.cfg := rfl
@[simp] theorem State.setV_keys (s : State) (v : Vector Byte 16) : (s.setV v).keys = s.keys := rfl
@[simp] theorem State.setV_rnd (s : State) (v : Vector Byte 16) : (s.setV v).rnd = s.rnd := rfl
@[simp] theorem State.setV_soundPulse (s : State) (v : Vector Byte 16) : (s.setV v).soundPulse = s.soundPulse := rfl
@[simp] theorem State.setV_unknownReport (s : State) (v : Vector Byte 16) : (s.setV v).unknownReport = s.unknownReport := rfl
@[simp] theorem State.setV_inputs (s : State) (v : Vector Byte 16) : (s.setV v).inputs = s.inputs := rfl
@[simp] theorem State.setV_draws (s : State) (v : Vector Byte 16) : (s.setV v).draws = s.draws := rfl
@[simp] theorem State.peek_setV (s : State) (v : Vector Byte 16) (a : Nat) : (s.setV v).peek a = s.peek a := rfl
@[simp] theorem State.pixel_setV (s : State) (v : Vector Byte 16) (px py : Nat) : (s.setV v).pixel px py = s.pixel px py := rfl
@[simp] theorem State.pc0_setV (s : State) (v : Vector Byte 16) : (s.setV v).pc0 = s.pc0 := rfl
@[simp] theorem State.ea_setV (s : State) (v : Vector Byte 16) (k : Nat) : (s.setV v).ea k = s.ea k := rfl

/-! ### setI -/

@[simp] theorem State.setI_v (s : State) (w : Word) : (s.setI w).v = s.v := rfl
@[simp] theorem State.setI_i (s : State) (w : Word) : (s.setI w).i = w := rfl
@[simp] theorem State.setI_pc (s : State) (w : Word) : (s.setI w).pc = s.pc := rfl
@[simp] theorem State.setI_stack (s : State) (w : Word) : (s.setI w).stack = s.stack := rfl
@[simp] theorem State.setI_dt (s : State) (w : Word) : (s.setI w).dt = s.dt := rfl
@[simp] theorem State.setI_st (s : State) (w : Word) : (s.setI w).st = s.st := rfl
@[simp] theorem State.setI_disp (s : State) (w : Word) : (s.setI w).disp = s.disp := rfl
@[simp] theorem State.setI_mem (s : State) (w : Word) : (s.setI w).mem = s.mem := rfl
@[simp] theorem State.setI_status (s : State) (w : Word) : (s.setI w).status = s.status := rfl
@[simp] theorem State.setI_diagWord (s : State) (w : Word) : (s.setI w).diagWord = s.diagWord := rfl
@[simp] theorem State.setI_cfg (s : State) (w : Word) : (s.setI w).cfg = s.cfg := rfl
@[simp] theorem State.setI_keys (s : State) (w : Word) : (s.setI w).keys = s.keys := rfl
@[simp] theorem State.setI_rnd (s : State) (w : Word) : (s.setI w).rnd = s.rnd := rfl
@[simp] theorem State.setI_soundPulse (s : State) (w : Word) : (s.setI w).soundPulse = s.soundPulse := rfl
@[simp] theorem State.setI_unknownReport (s : State) (w : Word) : (s.setI w).unknownReport = s.unknownReport := rfl
@[simp] theorem State.setI_inputs (s : State) (w : Word) : (s.setI w).inputs = s.inputs := rfl
@[simp] theorem State.setI_draws (s : State) (w : Word) : (s.setI w).draws = s.draws := rfl
@[simp] theorem State.reg_setI (s : State) (w : Word) (r : RegIx) : (s.setI w).reg r = s.reg r := rfl
@[simp] theorem State.peek_setI (s : State) (w : Word) (a : Nat) : (s.setI w).peek a = s.peek a := rfl
@[simp] theorem State.pixel_setI (s : State) (w : Word) (px py : Nat) : (s.setI w).pixel px py = s.pixel px py := rfl
@[simp] theorem State.pc0_setI (s : State) (w : Word) : (s.setI w).pc0 = s.pc0 := rfl

/-! ### setPC -/

@[simp] theorem State.setPC_v (s : State) (w : Word) : (s.setPC w).v = s.v := rfl
@[simp] theorem State.setPC_i (s : State) (w : Word) : (s.setPC w).i = s.i := rfl
@[simp] theorem State.setPC_pc (s : State) (w : Word) : (s.setPC w).pc = w := rfl
@[simp] theorem State.setPC_stack (s : State) (w : Word) : (s.setPC w).stack = s.stack := rfl
@[simp] theorem State.setPC_dt (s : State) (w : Word) : (s.setPC w).dt = s.dt := rfl
@[simp] theorem State.setPC_st (s : State) (w : Word) : (s.setPC w).st = s.st := rfl
@[simp] theorem State.setPC_disp (s : State) (w : Word) : (s.setPC w).disp = s.disp := rfl
@[simp] theorem State.setPC_mem (s : State) (w : Word) : (s.setPC w).mem = s.mem := rfl
@[simp] theorem State.setPC_status (s : State) (w : Word) : (s.setPC w).status = s.status := rfl
@[simp] theorem State.setPC_diagWord (s : State) (w : Word) : (s.setPC w).diagWord = s.diagWord := rfl
@[simp] theorem State.setPC_cfg (s : State) (w : Word) : (s.setPC w).cfg = s.cfg := rfl
@[simp] theorem State.setPC_keys (s : State) (w : Word) : (s.setPC w).keys = s.keys := rfl
@[simp] theorem State.setPC_rnd (s : State) (w : Word) : (s.setPC w).rnd = s.rnd := rfl
@[simp] theorem State.setPC_soundPulse (s : State) (w : Word) : (s.setPC w).soundPulse = s.soundPulse := rfl
@[simp] theorem State.setPC_unknownReport (s : State) (w : Word) : (s.setPC w).unknownReport = s.unknownReport := rfl
@[simp] theorem State.setPC_inputs (s : State) (w : Word) : (s.setPC w).inputs = s.inputs := rfl
@[simp] theorem State.setPC_draws (s : State) (w : Word) : (s.setPC w).draws = s.draws := rfl
@[simp] theorem State.reg_setPC (s : State) (w : Word) (r : RegIx) : (s.setPC w).reg r = s.reg r := rfl
@[simp] theorem State.peek_setPC (s : State) (w : Word) (a : Nat) : (s.setPC w).peek a = s.peek a := rfl
@[simp] theorem State.pixel_setPC (s : State) (w : Word) (px py : Nat) : (s.setPC w).pixel px py = s.pixel px py := rfl
@[simp] theorem State.ea_setPC (s : State) (w : Word) (k : Nat) : (s.setPC w).ea k = s.ea k := rfl

/-! ### setDT -/

@[simp] theorem State.setDT_v (s : State) (b : Byte) : (s.setDT b).v = s.v := rfl
@[simp] theorem State.setDT_i (s : State) (b : Byte) : (s.setDT b).i = s.i := rfl
@[simp] theorem State.setDT_pc (s : State) (b : Byte) : (s.setDT b).pc = s.pc := rfl
@[simp] theorem State.setDT_stack (s : State) (b : Byte) : (s.setDT b).stack = s.stack := rfl
@[simp] theorem State.setDT_dt (s : State) (b : Byte) : (s.setDT b).dt = b := rfl
@[simp] theorem State.setDT_st (s : State) (b : Byte) : (s.setDT b).st = s.st := rfl
@[simp] theorem State.setDT_disp (s : State) (b : Byte) : (s.setDT b).disp = s.disp := rfl
@[simp] theorem State.setDT_mem (s : State) (b : Byte) : (s.setDT b).mem = s.mem := rfl
@[simp] theorem State.setDT_status (s : State) (b : Byte) : (s.setDT b).status = s.status := rfl
@[simp] theorem State.setDT_diagWord (s : State) (b : Byte) : (s.setDT b).diagWord = s.diagWord := rfl
@[simp] theorem State.setDT_cfg (s : State) (b : Byte) : (s.setDT b).cfg = s.cfg := rfl
@[simp] theorem State.setDT_keys (s : State) (b : Byte) : (s.setDT b).keys = s.keys := rfl
@[simp] theorem State.setDT_rnd (s : State) (b : Byte) : (s.setDT b).rnd = s.rnd := rfl
@[simp] theorem State.setDT_soundPulse (s : State) (b : Byte) : (s.setDT b).soundPulse = s.soundPulse := rfl
@[simp] theorem State.setDT_unknownReport (s : State) (b : Byte) : (s.setDT b).unknownReport = s.unknownReport := rfl
@[simp] theorem State.setDT_inputs (s : State) (b : Byte) : (s.setDT b).inputs = s.inputs := rfl
@[simp] theorem State.setDT_draws (s : State) (b : Byte) : (s.setDT b).draws = s.draws := rfl
@[simp] theorem State.reg_setDT (s : State) (b : Byte) (r : RegIx) : (s.setDT b).reg r = s.reg r := rfl
@[simp] theorem State.peek_setDT (s : State) (b : Byte) (a : Nat) : (s.setDT b).peek a = s.peek a := rfl
@[simp] theorem State.pixel_setDT (s : State) (b : Byte) (px py : Nat) : (s.setDT b).pixel px py = s.pixel px py := rfl
@[simp] theorem State.pc0_setDT (s : State) (b : Byte) : (s.setDT b).pc0 = s.pc0 := rfl
@[simp] theorem State.ea_setDT (s : State) (b : Byte) (k : Nat) : (s.setDT b).ea k = s.ea k := rfl

/-! ### setST -/

@[simp] theorem State.setST_v (s : State) (b : Byte) : (s.setST b).v = s.v := rfl
@[simp] theorem State.setST_i (s : State) (b : Byte) : (s.setST b).i = s.i := rfl
@[simp] theorem State.setST_pc (s : State) (b : Byte) : (s.setST b).pc = s.pc := rfl
@[simp] theorem State.setST_stack (s : State) (b : Byte) : (s.setST b).stack = s.stack := rfl
@[simp] theorem State.setST_dt (s : State) (b : Byte) : (s.setST b).dt = s.dt := rfl
@[simp] theorem State.setST_st (s : State) (b : Byte) : (s.setST b).st = b := rfl
@[simp] theorem State.setST_disp (s : State) (b : Byte) : (s.setST b).disp = s.disp := rfl
@[simp] theorem State.setST_mem (s : State) (b : Byte) : (s.setST b).mem = s.mem := rfl
@[simp] theorem State.setST_status (s : State) (b : Byte) : (s.setST b).status = s.status := rfl
@[simp] theorem State.setST_diagWord (s : State) (b : Byte) : (s.setST b).diagWord = s.diagWord := rfl
@[simp] theorem State.setST_cfg (s : State) (b : Byte) : (s.setST b).cfg = s.cfg := rfl
@[simp] theorem State.setST_keys (s : State) (b : Byte) : (s.setST b).keys = s.keys := rfl
@[simp] theorem State.setST_rnd (s : State) (b : Byte) : (s.setST b).rnd = s.rnd := rfl
@[simp] theorem State.setST_soundPulse (s : State) (b : Byte) : (s.setST b).soundPulse = s.soundPulse := rfl
@[simp] theorem State.setST_unknownReport (s : State) (b : Byte) : (s.setST b).unknownReport = s.unknownReport := rfl
@[simp] theorem State.setST_inputs (s : State) (b : Byte) : (s.setST b).inputs = s.inputs := rfl
@[simp] theorem State.setST_draws (s : State) (b : Byte) : (s.setST b).draws = s.draws := rfl
@[simp] theorem State.reg_setST (s : State) (b : Byte) (r : RegIx) : (s.setST b).reg r = s.reg r := rfl
@[simp] theorem State.peek_setST (s : State) (b : Byte) (a : Nat) : (s.setST b).peek a = s.peek a := rfl
@[simp] theorem State.pixel_setST (s : State) (b : Byte) (px py : Nat) : (s.setST b).pixel px py = s.pixel px py := rfl
@[simp] theorem State.pc0_setST (s : State) (b : Byte) : (s.setST b).pc0 = s.pc0 := rfl
@[simp] theorem State.ea_setST (s : State) (b : Byte) (k : Nat) : (s.setST b).ea k = s.ea k := rfl

/-! ### setStack -/

@[simp] theorem State.setStack_v (s : State) (l : List Word) : (s.setStack l).v = s.v := rfl
@[simp] theorem State.setStack_i (s : State) (l : List Word) : (s.setStack l).i = s.i := rfl
@[simp] theorem State.setStack_pc (s : State) (l : List Word) : (s.setStack l).pc = s.pc := rfl
@[simp] theorem State.setStack_stack (s : State) (l : List Word) : (s.setStack l).stack = l := rfl
@[simp] theorem State.setStack_dt (s : State) (l : List Word) : (s.setStack l).dt = s.dt := rfl
@[simp] theorem State.setStack_st (s : State) (l : List Word) : (s.setStack l).st = s.st := rfl
@[simp] theorem State.setStack_disp (s : State) (l : List Word) : (s.setStack l).disp = s.disp := rfl
@[simp] theorem State.setStack_mem (s : State) (l : List Word) : (s.setStack l).mem = s.mem := rfl
@[simp] theorem State.setStack_status (s : State) (l : List Word) : (s.setStack l).status = s.status := rfl
@[simp] theorem State.setStack_diagWord (s : State) (l : List Word) : (s.setStack l).diagWord = s.diagWord := rfl
@[simp] theorem State.setStack_cfg (s : State) (l : List Word) : (s.setStack l).cfg = s.cfg := rfl
@[simp] theorem State.setStack_keys (s : State) (l : List Word) : (s.setStack l).keys = s.keys := rfl
@[simp] theorem State.setStack_rnd (s : State) (l : List Word) : (s.setStack l).rnd = s.rnd := rfl
@[simp] theorem State.setStack_soundPulse (s : State) (l : List Word) : (s.setStack l).soundPulse = s.soundPulse := rfl
@[simp] theorem State.setStack_unknownReport (s : State) (l : List Word) : (s.setStack l).unknownReport = s.unknownReport := rfl
@[simp] theorem State.setStack_inputs (s : State) (l : List Word) : (s.setStack l).inputs = s.inputs := rfl
@[simp] theorem State.setStack_draws (s : State) (l : List Word) : (s.setStack l).draws = s.draws := rfl
@[simp] theorem State.reg_setStack (s : State) (l : List Word) (r : RegIx) : (s.setStack l).reg r = s.reg r := rfl
@[simp] theorem State.peek_setStack (s : State) (l : List Word) (a : Nat) : (s.setStack l).peek a = s.peek a := rfl
@[simp] theorem State.pixel_setStack (s : State) (l : List Word) (px py : Nat) : (s.setStack l).pixel px py = s.pixel px py := rfl
@[simp] theorem State.pc0_setStack (s : State) (l : List Word) : (s.setStack l).pc0 = s.pc0 := rfl
@[simp] theorem State.ea_setStack (s : State) (l : List Word) (k : Nat) : (s.setStack l).ea k = s.ea k := rfl

/-! ### setDisp -/

@[simp] theorem State.setDisp_v (s : State) (d : Display) : (s.setDisp d).v = s.v := rfl
@[simp] theorem State.setDisp_i (s : State) (d : Display) : (s.setDisp d).i = s.i := rfl
@[simp] theorem State.setDisp_pc (s : State) (d : Display) : (s.setDisp d).pc = s.pc := rfl
@[simp] theorem State.setDisp_stack (s : State) (d : Display) : (s.setDisp d).stack = s.stack := rfl
@[simp] theorem State.setDisp_dt (s : State) (d : Display) : (s.setDisp d).dt = s.dt := rfl
@[simp] theorem State.setDisp_st (s : State) (d : Display) : (s.setDisp d).st = s.st := rfl
@[simp] theorem State.setDisp_disp (s : State) (d : Display) : (s.setDisp d).disp = d := rfl
@[simp] theorem State.setDisp_mem (s : State) (d : Display) : (s.setDisp d).mem = s.mem := rfl
@[simp] theorem State.setDisp_status (s : State) (d : Display) : (s.setDisp d).status = s.status := rfl
@[simp] theorem State.setDisp_diagWord (s : State) (d : Display) : (s.setDisp d).diagWord = s.diagWord := rfl
@[simp] theorem State.setDisp_cfg (s : State) (d : Display) : (s.setDisp d).cfg = s.cfg := rfl
@[simp] theorem State.setDisp_keys (s : State) (d : Display) : (s.setDisp d).keys = s.keys := rfl
@[simp] theorem State.setDisp_rnd (s : State) (d : Display) : (s.setDisp d).rnd = s.rnd := rfl
@[simp] theorem State.setDisp_soundPulse (s : State) (d : Display) : (s.setDisp d).soundPulse = s.soundPulse := rfl
@[simp] theorem State.setDisp_unknownReport (s : State) (d : Display) : (s.setDisp d).unknownReport = s.unknownReport := rfl
@[simp] theorem State.setDisp_inputs (s : State) (d : Display) : (s.setDisp d).inputs = s.inputs := rfl
@[simp] theorem State.setDisp_draws (s : State) (d : Display) : (s.setDisp d).draws = s.draws := rfl
@[simp] theorem State.reg_setDisp (s : State) (d : Display) (r : RegIx) : (s.setDisp d).reg r = s.reg r := rfl
@[simp] theorem State.peek_setDisp (s : State) (d : Display) (a : Nat) : (s.setDisp d).peek a = s.peek a := rfl
@[simp] theorem State.pc0_setDisp (s : State) (d : Display) : (s.setDisp d).pc0 = s.pc0 := rfl
@[simp] theorem State.ea_setDisp (s : State) (d : Display) (k : Nat) : (s.setDisp d).ea k = s.ea k := rfl

/-! ### setMem -/

@[simp] theorem State.setMem_v (s : State) (m : Memory) : (s.setMem m).v = s.v := rfl
@[simp] theorem State.setMem_i (s : State) (m : Memory) : (s.setMem m).i = s.i := rfl
@[simp] theorem State.setMem_pc (s : State) (m : Memory) : (s.setMem m).pc = s.pc := rfl
@[simp] theorem State.setMem_stack (s : State) (m : Memory) : (s.setMem m).stack = s.stack := rfl
@[simp] theorem State.setMem_dt (s : State) (m : Memory) : (s.setMem m).dt = s.dt := rfl
@[simp] theorem State.setMem_st (s : State) (m : Memory) : (s.setMem m).st = s.st := rfl
@[simp] theorem State.setMem_disp (s : State) (m : Memory) : (s.setMem m).disp = s.disp := rfl
@[simp] theorem State.setMem_mem (s : State) (m : Memory) : (s.setMem m).mem = m := rfl
@[simp] theorem State.setMem_status (s : State) (m : Memory) : (s.setMem m).status = s.status := rfl
@[simp] theorem State.setMem_diagWord (s : State) (m : Memory) : (s.setMem m).diagWord = s.diagWord := rfl
@[simp] theorem State.setMem_cfg (s : State) (m : Memory) : (s.setMem m).cfg = s.cfg := rfl
@[simp] theorem State.setMem_keys (s : State) (m : Memory) : (s.setMem m).keys = s.keys := rfl
@[simp] theorem State.setMem_rnd (s : State) (m : Memory) : (s.setMem m).rnd = s.rnd := rfl
@[simp] theorem State.setMem_soundPulse (s : State) (m : Memory) : (s.setMem m).soundPulse = s.soundPulse := rfl
@[simp] theorem State.setMem_unknownReport (s : State) (m : Memory) : (s.setMem m).unknownReport = s.unknownReport := rfl
@[simp] theorem State.setMem_inputs (s : State) (m : Memory) : (s.setMem m).inputs = s.inputs := rfl
@[simp] theorem State.setMem_draws (s : State) (m : Memory) : (s.setMem m).draws = s.draws := rfl
@[simp] theorem State.reg_setMem (s : State) (m : Memory) (r : RegIx) : (s.setMem m).reg r = s.reg r := rfl
@[simp] theorem State.pixel_setMem (s : State) (m : Memory) (px py : Nat) : (s.setMem m).pixel px py = s.pixel px py := rfl
@[simp] theorem State.pc0_setMem (s : State) (m : Memory) : (s.setMem m).pc0 = s.pc0 := rfl
@[simp] theorem State.ea_setMem (s : State) (m : Memory) (k : Nat) : (s.setMem m).ea k = s.ea k := rfl

/-! ### setStatus -/

@[simp] theorem State.setStatus_v (s : State) (q : Status) : (s.setStatus q).v = s.v := rfl
@[simp] theorem State.setStatus_i (s : State) (q : Status) : (s.setStatus q).i = s.i := rfl
@[simp] theorem State.setStatus_pc (s : State) (q : Status) : (s.setStatus q).pc = s.pc := rfl
@[simp] theorem State.setStatus_stack (s : State) (q : Status) : (s.setStatus q).stack = s.stack := rfl
@[simp] theorem State.setStatus_dt (s : State) (q : Status) : (s.setStatus q).dt = s.dt := rfl
@[simp] theorem State.setStatus_st (s : State) (q : Status) : (s.setStatus q).st = s.st := rfl
@[simp] theorem State.setStatus_disp (s : State) (q : Status) : (s.setStatus q).disp = s.disp := rfl
@[simp] theorem State.setStatus_mem (s : State) (q : Status) : (s.setStatus q).mem = s.mem := rfl
@[simp] theorem State.setStatus_status (s : State) (q : Status) : (s.setStatus q).status = q := rfl
@[simp] theorem State.setStatus_diagWord (s : State) (q : Status) : (s.setStatus q).diagWord = s.diagWord := rfl
@[simp] theorem State.setStatus_cfg (s : State) (q : Status) : (s.setStatus q).cfg = s.cfg := rfl
@[simp] theorem State.setStatus_keys (s : State) (q : Status) : (s.setStatus q).keys = s.keys := rfl
@[simp] theorem State.setStatus_rnd (s : State) (q : Status) : (s.setStatus q).rnd = s.rnd := rfl
@[simp] theorem State.setStatus_soundPulse (s : State) (q : Status) : (s.setStatus q).soundPulse = s.soundPulse := rfl
@[simp] theorem State.setStatus_unknownReport (s : State) (q : Status) : (s.setStatus q).unknownReport = s.unknownReport := rfl
@[simp] theorem State.setStatus_inputs (s : State) (q : Status) : (s.setStatus q).inputs = s.inputs := rfl
@[simp] theorem State.setStatus_draws (s : State) (q : Status) : (s.setStatus q).draws = s.draws := rfl
@[simp] theorem State.reg_setStatus (s : State) (q : Status) (r : RegIx) : (s.setStatus q).reg r = s.reg r := rfl
@[simp] theorem State.peek_setStatus (s : State) (q : Status) (a : Nat) : (s.setStatus q).peek a = s.peek a := rfl
@[simp] theorem State.pixel_setStatus (s : State) (q : Status) (px py : Nat) : (s.setStatus q).pixel px py = s.pixel px py := rfl
@[simp] theorem State.pc0_setStatus (s : State) (q : Status) : (s.setStatus q).pc0 = s.pc0 := rfl
@[simp] theorem State.ea_setStatus (s : State) (q : Status) (k : Nat) : (s.setStatus q).ea k = s.ea k := rfl

/-! ### push -/

@[simp] theorem State.push_v (s : State) (w : Word) : (s.push w).v = s.v := rfl
@[simp] theorem State.push_i (s : State) (w : Word) : (s.push w).i = s.i := rfl
@[simp] theorem State.push_pc (s : State) (w : Word) : (s.push w).pc = s.pc := rfl
@[simp] theorem State.push_stack (s : State) (w : Word) : (s.push w).stack = s.stack ++ [w] := rfl
@[simp] theorem State.push_dt (s : State) (w : Word) : (s.push w).dt = s.dt := rfl
@[simp] theorem State.push_st (s : State) (w : Word) : (s.push w).st = s.st := rfl
@[simp] theorem State.push_disp (s : State) (w : Word) : (s.push w).disp = s.disp := rfl
@[simp] theorem State.push_mem (s : State) (w : Word) : (s.push w).mem = s.mem := rfl
@[simp] theorem State.push_status (s : State) (w : Word) : (s.push w).status = s.status := rfl
@[simp] theorem State.push_diagWord (s : State) (w : Word) : (s.push w).diagWord = s.diagWord := rfl
@[simp] theorem State.push_cfg (s : State) (w : Word) : (s.push w).cfg = s.cfg := rfl
@[simp] theorem State.push_keys (s : State) (w : Word) : (s.push w).keys = s.keys := rfl
@[simp] theorem State.push_rnd (s : State) (w : Word) : (s.push w).rnd = s.rnd := rfl
@[simp] theorem State.push_soundPulse (s : State) (w : Word) : (s.push w).soundPulse = s.soundPulse := rfl
@[simp] theorem State.push_unknownReport (s : State) (w : Word) : (s.push w).unknownReport = s.unknownReport := rfl
@[simp] theorem State.push_inputs (s : State) (w : Word) : (s.push w).inputs = s.inputs := rfl
@[simp] theorem State.push_draws (s : State) (w : Word) : (s.push w).draws = s.draws := rfl
@[simp] theorem State.reg_push (s : State) (w : Word) (r : RegIx) : (s.push w).reg r = s.reg r := rfl
@[simp] theorem State.peek_push (s : State) (w : Word) (a : Nat) : (s.push w).peek a = s.peek a := rfl
@[simp] theorem State.pixel_push (s : State) (w : Word) (px py : Nat) : (s.push w).pixel px py = s.pixel px py := rfl
@[simp] theorem State.pc0_push (s : State) (w : Word) : (s.push w).pc0 = s.pc0 := rfl
@[simp] theorem State.ea_push (s : State) (w : Word) (k : Nat) : (s.push w).ea k = s.ea k := rfl

/-! ### fetched -/

@[simp] theorem State.fetched_v (s : State) (w : Word) : (s.fetched w).v = s.v := rfl
@[simp] theorem State.fetched_i (s : State) (w : Word) : (s.fetched w).i = s.i := rfl
@[simp] theorem State.fetched_pc (s : State) (w : Word) : (s.fetched w).pc = s.pc + 2#16 := rfl
@[simp] theorem State.fetched_stack (s : State) (w : Word) : (s.fetched w).stack = s.stack := rfl
@[simp] theorem State.fetched_dt (s : State) (w : Word) : (s.fetched w).dt = s.dt := rfl
@[simp] theorem State.fetched_st (s : State) (w : Word) : (s.fetched w).st = s.st := rfl
@[simp] theorem State.fetched_disp (s : State) (w : Word) : (s.fetched w).disp = s.disp := rfl
@[simp] theorem State.fetched_mem (s : State) (w : Word) : (s.fetched w).mem = s.mem := rfl
@[simp] theorem State.fetched_status (s : State) (w : Word) : (s.fetched w).status = s.status := rfl
@[simp] theorem State.fetched_diagWord (s : State) (w : Word) : (s.fetched w).diagWord = w := rfl
@[simp] theorem State.fetched_cfg (s : State) (w : Word) : (s.fetched w).cfg = s.cfg := rfl
@[simp] theorem State.fetched_keys (s : State) (w : Word) : (s.fetched w).keys = s.keys := rfl
@[simp] theorem State.fetched_rnd (s : State) (w : Word) : (s.fetched w).rnd = s.rnd := rfl
@[simp] theorem State.fetched_soundPulse (s : State) (w : Word) : (s.fetched w).soundPulse = s.soundPulse := rfl
@[simp] theorem State.fetched_unknownReport (s : State) (w : Word) : (s.fetched w).unknownReport = none := rfl
@[simp] theorem State.fetched_inputs (s : State) (w : Word) : (s.fetched w).inputs = s.inputs := rfl
@[simp] theorem State.fetched_draws (s : State) (w : Word) : (s.fetched w).draws = s.draws := rfl
@[simp] theorem State.reg_fetched (s : State) (w : Word) (r : RegIx) : (s.fetched w).reg r = s.reg r := rfl
@[simp] theorem State.peek_fetched (s : State) (w : Word) (a : Nat) : (s.fetched w).peek a = s.peek a := rfl
@[simp] theorem State.pixel_fetched (s : State) (w : Word) (px py : Nat) : (s.fetched w).pixel px py = s.pixel px py := rfl
@[simp] theorem State.ea_fetched (s : State) (w : Word) (k : Nat) : (s.fetched w).ea k = s.ea k := rfl

/-! ### reportUnknown -/

@[simp] theorem State.reportUnknown_v (s : State) (w p : Word) : (s.reportUnknown w p).v = s.v := rfl
@[simp] theorem State.reportUnknown_i (s : State) (w p : Word) : (s.reportUnknown w p).i = s.i := rfl
@[simp] theorem State.reportUnknown_pc (s : State) (w p : Word) : (s.reportUnknown w p).pc = s.pc := rfl
@[simp] theorem State.reportUnknown_stack (s : State) (w p : Word) : (s.reportUnknown w p).stack = s.stack := rfl
@[simp] theorem State.reportUnknown_dt (s : State) (w p : Word) : (s.reportUnknown w p).dt = s.dt := rfl
@[simp] theorem State.reportUnknown_st (s : State) (w p : Word) : (s.reportUnknown w p).st = s.st := rfl
@[simp] theorem State.reportUnknown_disp (s : State) (w p : Word) : (s.reportUnknown w p).disp = s.disp := rfl
@[simp] theorem State.reportUnknown_mem (s : State) (w p : Word) : (s.reportUnknown w p).mem = s.mem := rfl
@[simp] theorem State.reportUnknown_status (s : State) (w p : Word) : (s.reportUnknown w p).status = s.status := rfl
@[simp] theorem State.reportUnknown_diagWord (s : State) (w p : Word) : (s.reportUnknown w p).diagWord = s.diagWord := rfl
@[simp] theorem State.reportUnknown_cfg (s : State) (w p : Word) : (s.reportUnknown w p).cfg = s.cfg := rfl
@[simp] theorem State.reportUnknown_keys (s : State) (w p : Word) : (s.reportUnknown w p).keys = s.keys := rfl
@[simp] theorem State.reportUnknown_rnd (s : State) (w p : Word) : (s.reportUnknown w p).rnd = s.rnd := rfl
@[simp] theorem State.reportUnknown_soundPulse (s : State) (w p : Word) : (s.reportUnknown w p).soundPulse = s.soundPulse := rfl
@[simp] theorem State.reportUnknown_unknownReport (s : State) (w p : Word) : (s.reportUnknown w p).unknownReport = some { word := w, pc0 := p } := rfl
@[simp] theorem State.reportUnknown_inputs (s : State) (w p : Word) : (s.reportUnknown w p).inputs = s.inputs := rfl
@[simp] theorem State.reportUnknown_draws (s : State) (w p : Word) : (s.reportUnknown w p).draws = s.draws := rfl
@[simp] theorem State.reg_reportUnknown (s : State) (w p : Word) (r : RegIx) : (s.reportUnknown w p).reg r = s.reg r := rfl
@[simp] theorem State.peek_reportUnknown (s : State) (w p : Word) (a : Nat) : (s.reportUnknown w p).peek a = s.peek a := rfl
@[simp] theorem State.pixel_reportUnknown (s : State) (w p : Word) (px py : Nat) : (s.reportUnknown w p).pixel px py = s.pixel px py := rfl
@[simp] theorem State.pc0_reportUnknown (s : State) (w p : Word) : (s.reportUnknown w p).pc0 = s.pc0 := rfl
@[simp] theorem State.ea_reportUnknown (s : State) (w p : Word) (k : Nat) : (s.reportUnknown w p).ea k = s.ea k := rfl

/-! ### timerTick -/

@[simp] theorem State.timerTick_v (s : State) : (s.timerTick).v = s.v := rfl
@[simp] theorem State.timerTick_i (s : State) : (s.timerTick).i = s.i := rfl
@[simp] theorem State.timerTick_pc (s : State) : (s.timerTick).pc = s.pc := rfl
@[simp] theorem State.timerTick_stack (s : State) : (s.timerTick).stack = s.stack := rfl
@[simp] theorem State.timerTick_dt (s : State) : (s.timerTick).dt = countDown s.dt := rfl
@[simp] theorem State.timerTick_st (s : State) : (s.timerTick).st = countDown s.st := rfl
@[simp] theorem State.timerTick_disp (s : State) : (s.timerTick).disp = s.disp := rfl
@[simp] theorem State.timerTick_mem (s : State) : (s.timerTick).mem = s.mem := rfl
@[simp] theorem State.timerTick_status (s : State) : (s.timerTick).status = s.status := rfl
@[simp] theorem State.timerTick_diagWord (s : State) : (s.timerTick).diagWord = s.diagWord := rfl
@[simp] theorem State.timerTick_cfg (s : State) : (s.timerTick).cfg = s.cfg := rfl
@[simp] theorem State.timerTick_keys (s : State) : (s.timerTick).keys = s.keys := rfl
@[simp] theorem State.timerTick_rnd (s : State) : (s.timerTick).rnd = s.rnd := rfl
@[simp] theorem State.timerTick_soundPulse (s : State) : (s.timerTick).soundPulse = (s.st != 0#8) := rfl
@[simp] theorem State.timerTick_unknownReport (s : State) : (s.timerTick).unknownReport = s.unknownReport := rfl
@[simp] theorem State.timerTick_inputs (s : State) : (s.timerTick).inputs = s.inputs := rfl
@[simp] theorem State.timerTick_draws (s : State) : (s.timerTick).draws = s.draws := rfl
@[simp] theorem State.reg_timerTick (s : State) (r : RegIx) : (s.timerTick).reg r = s.reg r := rfl
@[simp] theorem State.peek_timerTick (s : State) (a : Nat) : (s.timerTick).peek a = s.peek a := rfl
@[simp] theorem State.pixel_timerTick (s : State) (px py : Nat) : (s.timerTick).pixel px py = s.pixel px py := rfl
@[simp] theorem State.pc0_timerTick (s : State) : (s.timerTick).pc0 = s.pc0 := rfl
@[simp] theorem State.ea_timerTick (s : State) (k : Nat) : (s.timerTick).ea k = s.ea k := rfl

/-! ### writeResultThenFlag -/

@[simp] theorem State.writeResultThenFlag_i (s : State) (x : RegIx) (b : Byte) (f : Bool) : (s.writeResultThenFlag x b f).i = s.i := rfl
@[simp] theorem State.writeResultThenFlag_pc (s : State) (x : RegIx) (b : Byte) (f : Bool) : (s.writeResultThenFlag x b f).pc = s.pc := rfl
@[simp] theorem State.writeResultThenFlag_stack (s : State) (x : RegIx) (b : Byte) (f : Bool) : (s.writeResultThenFlag x b f).stack = s.stack := rfl
@[simp] theorem State.writeResultThenFlag_dt (s : State) (x : RegIx) (b : Byte) (f : Bool) : (s.writeResultThenFlag x b f).dt = s.dt := rfl
@[simp] theorem State.writeResultThenFlag_st (s : State) (x : RegIx) (b : Byte) (f : Bool) : (s.writeResultThenFlag x b f).st = s.st := rfl
@[simp] theorem State.writeResultThenFlag_disp (s : State) (x : RegIx) (b : Byte) (f : Bool) : (s.writeResultThenFlag x b f).disp = s.disp := rfl
@[simp] theorem State.writeResultThenFlag_mem (s : State) (x : RegIx) (b : Byte) (f : Bool) : (s.writeResultThenFlag x b f).mem = s.mem := rfl
@[simp] theorem State.writeResultThenFlag_status (s : State) (x : RegIx) (b : Byte) (f : Bool) : (s.writeResultThenFlag x b f).status = s.status := rfl
@[simp] theorem State.writeResultThenFlag_diagWord (s : State) (x : RegIx) (b : Byte) (f : Bool) : (s.writeResultThenFlag x b f).diagWord = s.diagWord := rfl
@[simp] theorem State.writeResultThenFlag_cfg (s : State) (x : RegIx) (b : Byte) (f : Bool) : (s.writeResultThenFlag x b f).cfg = s.cfg := rfl
@[simp] theorem State.writeResultThenFlag_keys (s : State) (x : RegIx) (b : Byte) (f : Bool) : (s.writeResultThenFlag x b f).keys = s.keys := rfl
@[simp] theorem State.writeResultThenFlag_rnd (s : State) (x : RegIx) (b : Byte) (f : Bool) : (s.writeResultThenFlag x b f).rnd = s.rnd := rfl
@[simp] theorem State.writeResultThenFlag_soundPulse (s : State) (x : RegIx) (b : Byte) (f : Bool) : (s.writeResultThenFlag x b f).soundPulse = s.soundPulse := rfl
@[simp] theorem State.writeResultThenFlag_unknownReport (s : State) (x : RegIx) (b : Byte) (f : Bool) : (s.writeResultThenFlag x b f).unknownReport = s.unknownReport := rfl
@[simp] theorem State.writeResultThenFlag_inputs (s : State) (x : RegIx) (b : Byte) (f : Bool) : (s.writeResultThenFlag x b f).inputs = s.inputs := rfl
@[simp] theorem State.writeResultThenFlag_draws (s : State) (x : RegIx) (b : Byte) (f : Bool) : (s.writeResultThenFlag x b f).draws = s.draws := rfl
@[simp] theorem State.peek_writeResultThenFlag (s : State) (x : RegIx) (b : Byte) (f : Bool) (a : Nat) : (s.writeResultThenFlag x b f).peek a = s.peek a := rfl
@[simp] theorem State.pixel_writeResultThenFlag (s : State) (x : RegIx) (b : Byte) (f : Bool) (px py : Nat) : (s.writeResultThenFlag x b f).pixel px py = s.pixel px py := rfl
@[simp] theorem State.pc0_writeResultThenFlag (s : State) (x : RegIx) (b : Byte) (f : Bool) : (s.writeResultThenFlag x b f).pc0 = s.pc0 := rfl
@[simp] theorem State.ea_writeResultThenFlag (s : State) (x : RegIx) (b : Byte) (f : Bool) (k : Nat) : (s.writeResultThenFlag x b f).ea k = s.ea k := rfl

/-! ### skipIf -/

@[simp] theorem State.skipIf_v (s : State) (c : Bool) : (s.skipIf c).v = s.v := by unfold State.skipIf; split <;> rfl
@[simp] theorem State.skipIf_i (s : State) (c : Bool) : (s.skipIf c).i = s.i := by unfold State.skipIf; split <;> rfl
@[simp] theorem State.skipIf_stack (s : State) (c : Bool) : (s.skipIf c).stack = s.stack := by unfold State.skipIf; split <;> rfl
@[simp] theorem State.skipIf_dt (s : State) (c : Bool) : (s.skipIf c).dt = s.dt := by unfold State.skipIf; split <;> rfl
@[simp] theorem State.skipIf_st (s : State) (c : Bool) : (s.skipIf c).st = s.st := by unfold State.skipIf; split <;> rfl
@[simp] theorem State.skipIf_disp (s : State) (c : Bool) : (s.skipIf c).disp = s.disp := by unfold State.skipIf; split <;> rfl
@[simp] theorem State.skipIf_mem (s : State) (c : Bool) : (s.skipIf c).mem = s.mem := by unfold State.skipIf; split <;> rfl
@[simp] theorem State.skipIf_status (s : State) (c : Bool) : (s.skipIf c).status = s.status := by unfold State.skipIf; split <;> rfl
@[simp] theorem State.skipIf_diagWord (s : State) (c : Bool) : (s.skipIf c).diagWord = s.diagWord := by unfold State.skipIf; split <;> rfl
@[simp] theorem State.skipIf_cfg (s : State) (c : Bool) : (s.skipIf c).cfg = s.cfg := by unfold State.skipIf; split <;> rfl
@[simp] theorem State.skipIf_keys (s : State) (c : Bool) : (s.skipIf c).keys = s.keys := by unfold State.skipIf; split <;> rfl
@[simp] theorem State.skipIf_rnd (s : State) (c : Bool) : (s.skipIf c).rnd = s.rnd := by unfold State.skipIf; split <;> rfl
@[simp] theorem State.skipIf_soundPulse (s : State) (c : Bool) : (s.skipIf c).soundPulse = s.soundPulse := by unfold State.skipIf; split <;> rfl
@[simp] theorem State.skipIf_unknownReport (s : State) (c : Bool) : (s.skipIf c).unknownReport = s.unknownReport := by unfold State.skipIf; split <;> rfl
@[simp] theorem State.skipIf_inputs (s : State) (c : Bool) : (s.skipIf c).inputs = s.inputs := by unfold State.skipIf; split <;> rfl
@[simp] theorem State.skipIf_draws (s : State) (c : Bool) : (s.skipIf c).draws = s.draws := by unfold State.skipIf; split <;> rfl
@[simp] theorem State.reg_skipIf (s : State) (c : Bool) (r : RegIx) : (s.skipIf c).reg r = s.reg r := by
  unfold State.skipIf; split <;> rfl
@[simp] theorem State.peek_skipIf (s : State) (c : Bool) (a : Nat) : (s.skipIf c).peek a = s.peek a := by
  unfold State.skipIf; split <;> rfl
@[simp] theorem State.pixel_skipIf (s : State) (c : Bool) (px py : Nat) : (s.skipIf c).pixel px py = s.pixel px py := by
  unfold State.skipIf; split <;> rfl
@[simp] theorem State.ea_skipIf (s : State) (c : Bool) (k : Nat) : (s.skipIf c).ea k = s.ea k := by
  unfold State.skipIf; split <;> rfl

/-! ### advanceIndex -/

@[simp] theorem State.advanceIndex_v (s : State) (x : RegIx) : (s.advanceIndex x).v = s.v := by unfold State.advanceIndex; split <;> rfl
@[simp] theorem State.advanceIndex_pc (s : State) (x : RegIx) : (s.advanceIndex x).pc = s.pc := by unfold State.advanceIndex; split <;> rfl
@[simp] theorem State.advanceIndex_stack (s : State) (x : RegIx) : (s.advanceIndex x).stack = s.stack := by unfold State.advanceIndex; split <;> rfl
@[simp] theorem State.advanceIndex_dt (s : State) (x : RegIx) : (s.advanceIndex x).dt = s.dt := by unfold State.advanceIndex; split <;> rfl
@[simp] theorem State.advanceIndex_st (s : State) (x : RegIx) : (s.advanceIndex x).st = s.st := by unfold State.advanceIndex; split <;> rfl
@[simp] theorem State.advanceIndex_disp (s : State) (x : RegIx) : (s.advanceIndex x).disp = s.disp := by unfold State.advanceIndex; split <;> rfl
@[simp] theorem State.advanceIndex_mem (s : State) (x : RegIx) : (s.advanceIndex x).mem = s.mem := by unfold State.advanceIndex; split <;> rfl
@[simp] theorem State.advanceIndex_status (s : State) (x : RegIx) : (s.advanceIndex x).status = s.status := by unfold State.advanceIndex; split <;> rfl
@[simp] theorem State.advanceIndex_diagWord (s : State) (x : RegIx) : (s.advanceIndex x).diagWord = s.diagWord := by unfold State.advanceIndex; split <;> rfl
@[simp] theorem State.advanceIndex_cfg (s : State) (x : RegIx) : (s.advanceIndex x).cfg = s.cfg := by unfold State.advanceIndex; split <;> rfl
@[simp] theorem State.advanceIndex_keys (s : State) (x : RegIx) : (s.advanceIndex x).keys = s.keys := by unfold State.advanceIndex; split <;> rfl
@[simp] theorem State.advanceIndex_rnd (s : State) (x : RegIx) : (s.advanceIndex x).rnd = s.rnd := by unfold State.advanceIndex; split <;> rfl
@[simp] theorem State.advanceIndex_soundPulse (s : State) (x : RegIx) : (s.advanceIndex x).soundPulse = s.soundPulse := by unfold State.advanceIndex; split <;> rfl
@[simp] theorem State.advanceIndex_unknownReport (s : State) (x : RegIx) : (s.advanceIndex x).unknownReport = s.unknownReport := by unfold State.advanceIndex; split <;> rfl
@[simp] theorem State.advanceIndex_inputs (s : State) (x : RegIx) : (s.advanceIndex x).inputs = s.inputs := by unfold State.advanceIndex; split <;> rfl
@[simp] theorem State.advanceIndex_draws (s : State) (x : RegIx) : (s.advanceIndex x).draws = s.draws := by unfold State.advanceIndex; split <;> rfl
@[simp] theorem State.reg_advanceIndex (s : State) (x : RegIx) (r : RegIx) : (s.advanceIndex x).reg r = s.reg r := by
  unfold State.advanceIndex; split <;> rfl
@[simp] theorem State.peek_advanceIndex (s : State) (x : RegIx) (a : Nat) : (s.advanceIndex x).peek a = s.peek a := by
  unfold State.advanceIndex; split <;> rfl
@[simp] theorem State.pixel_advanceIndex (s : State) (x : RegIx) (px py : Nat) : (s.advanceIndex x).pixel px py = s.pixel px py := by
  unfold State.advanceIndex; split <;> rfl
@[simp] theorem State.pc0_advanceIndex (s : State) (x : RegIx) : (s.advanceIndex x).pc0 = s.pc0 := by
  unfold State.advanceIndex; split <;> rfl

/-! ### sampleInputs: only keys, rnd, inputs and draws change -/

/-- The host has fixed this step's inputs: they are taken, and gone from the list. -/
theorem State.sampleInputs_of_cons {s : State} {inp : StepInput} {rest : List StepInput} (h : s.inputs = inp :: rest) :
    s.sampleInputs = { s with keys := inp.keys, rnd := inp.rnd, inputs := rest } := by
  unfold State.sampleInputs
  rw [h]

/-- The host has fixed none: the two free values of this step's number are taken. -/
theorem State.sampleInputs_of_nil {s : State} (h : s.inputs = []) :
    s.sampleInputs =
      { s with keys := Config.freeKeys s.draws, rnd := Config.freeRnd s.draws, draws := s.draws + 1 } := by
  unfold State.sampleInputs
  rw [h]

@[simp] theorem State.sampleInputs_v (s : State) : s.sampleInputs.v = s.v := by
  unfold State.sampleInputs; split <;> rfl
@[simp] theorem State.sampleInputs_i (s : State) : s.sampleInputs.i = s.i := by
  unfold State.sampleInputs; split <;> rfl
@[simp] theorem State.sampleInputs_pc (s : State) : s.sampleInputs.pc = s.pc := by
  unfold State.sampleInputs; split <;> rfl
@[simp] theorem State.sampleInputs_stack (s : State) : s.sampleInputs.stack = s.stack := by
  unfold State.sampleInputs; split <;> rfl
@[simp] theorem State.sampleInputs_dt (s : State) : s.sampleInputs.dt = s.dt := by
  unfold State.sampleInputs; split <;> rfl
@[simp] theorem State.sampleInputs_st (s : State) : s.sampleInputs.st = s.st := by
  unfold State.sampleInputs; split <;> rfl
@[simp] theorem State.sampleInputs_disp (s : State) : s.sampleInputs.disp = s.disp := by
  unfold State.sampleInputs; split <;> rfl
@[simp] theorem State.sampleInputs_mem (s : State) : s.sampleInputs.mem = s.mem := by
  unfold State.sampleInputs; split <;> rfl
@[simp] theorem State.sampleInputs_status (s : State) : s.sampleInputs.status = s.status := by
  unfold State.sampleInputs; split <;> rfl
@[simp] theorem State.sampleInputs_diagWord (s : State) : s.sampleInputs.diagWord = s.diagWord := by
  unfold State.sampleInputs; split <;> rfl
@[simp] theorem State.sampleInputs_cfg (s : State) : s.sampleInputs.cfg = s.cfg := by
  unfold State.sampleInputs; split <;> rfl
@[simp] theorem State.sampleInputs_soundPulse (s : State) : s.sampleInputs.soundPulse = s.soundPulse := by
  unfold State.sampleInputs; split <;> rfl
@[simp] theorem State.sampleInputs_unknownReport (s : State) : s.sampleInputs.unknownReport = s.unknownReport := by
  unfold State.sampleInputs; split <;> rfl
@[simp] theorem State.reg_sampleInputs (s : State) (r : RegIx) : s.sampleInputs.reg r = s.reg r := by
  unfold State.sampleInputs; split <;> rfl
@[simp] theorem State.peek_sampleInputs (s : State) (a : Nat) : s.sampleInputs.peek a = s.peek a := by
  unfold State.sampleInputs; split <;> rfl
@[simp] theorem State.pixel_sampleInputs (s : State) (px py : Nat) : s.sampleInputs.pixel px py = s.pixel px py := by
  unfold State.sampleInputs; split <;> rfl
@[simp] theorem State.pc0_sampleInputs (s : State) : s.sampleInputs.pc0 = s.pc0 := by
  unfold State.sampleInputs; split <;> rfl
@[simp] theorem State.ea_sampleInputs (s : State) (k : Nat) : s.sampleInputs.ea k = s.ea k := by
  unfold State.sampleInputs; split <;> rfl

end Sys2Proof.Machine
end

