-- ==== Sys2Proof/Laws/Memory.lean ====
section
/-! SUPPORT. Memory: reading after a write, the canonical form kept by every operation, and what the block transfers can
do. -/

namespace Sys2Proof.Machine

/-- MEM_SIZE as a numeral, for arithmetic (R7). -/
theorem memSize_eq : memSize = 4096 := rfl

/-! ## Reading after a write -/

theorem Memory.lookup_erase (m : Memory) (a k : Nat) :
    Memory.lookup (Memory.erase m a) k = if k = a then none else Memory.lookup m k := by
  induction m with
  | nil => simp [Memory.erase, Memory.lookup]
  | cons c m ih =>
    unfold Memory.erase at ih ⊢
    by_cases hc : c.1 = a
    · rw [List.filter_cons_of_neg (by simp [hc]), ih]
      by_cases hk : k = a
      · simp [hk]
      · have : c.1 ≠ k := by omega
        simp [hk, Memory.lookup, this]
    · rw [List.filter_cons_of_pos (by simp [hc]), Memory.lookup, ih, Memory.lookup]
      by_cases hk : k = a
      · have : c.1 ≠ k := by omega
        simp [hk, hc]
      · simp [hk]

theorem Memory.lookup_insert (m : Memory) (c : Host.Cell) (k : Nat) (h : Memory.lookup m c.1 = none) :
    Memory.lookup (Memory.insert m c) k = if c.1 = k then some c.2 else Memory.lookup m k := by
  induction m with
  | nil => simp [Memory.insert, Memory.lookup]
  | cons d m ih =>
    by_cases hd : d.1 = c.1
    · simp [Memory.lookup, hd] at h
    · have hm : Memory.lookup m c.1 = none := by simpa [Memory.lookup, hd] using h
      rw [Memory.insert]
      split
      · simp [Memory.lookup]
      · rw [Memory.lookup, ih hm, Memory.lookup]
        by_cases hk : d.1 = k
        · have : c.1 ≠ k := by omega
          simp [hk, this]
        · simp [hk]

/-- Read after write: the byte written at its address, the old byte elsewhere; of any list, canonical or not. -/
theorem Memory.read_write (m : Memory) (a k : Nat) (b : Byte) :
    Memory.read (Memory.write m a b) k = if k = a then b else Memory.read m k := by
  have he : Memory.lookup (Memory.erase m a) a = none := by simp [Memory.lookup_erase]
  unfold Memory.read Memory.write
  by_cases hb : b = resetByte a
  · rw [if_pos hb, Memory.lookup_erase]
    by_cases hk : k = a <;> simp [hk, hb]
  · rw [if_neg hb, Memory.lookup_insert _ _ _ he, Memory.lookup_erase]
    by_cases hk : k = a
    · simp [hk]
    · have : a ≠ k := by omega
      simp [hk, this]

@[simp] theorem Memory.read_write_same (m : Memory) (a : Nat) (b : Byte) :
    Memory.read (Memory.write m a b) a = b := by
  simp [Memory.read_write]

theorem Memory.read_write_of_ne (m : Memory) {a k : Nat} (b : Byte) (h : k ≠ a) :
    Memory.read (Memory.write m a b) k = Memory.read m k := by
  simp [Memory.read_write, h]

@[simp] theorem Memory.read_nil (a : Nat) : Memory.read [] a = resetByte a := rfl

/-- Reading after a run of writes at rising addresses. -/
theorem Memory.read_writeList (bs : List Byte) : ∀ (m : Memory) (a k : Nat),
    Memory.read (Memory.writeList m a bs) k =
      if a ≤ k ∧ k < a + bs.length then bs.getD (k - a) 0#8 else Memory.read m k := by
  induction bs with
  | nil =>
    intro m a k
    have : ¬ (a ≤ k ∧ k < a + ([] : List Byte).length) := by simp
    rw [if_neg this, Memory.writeList]
  | cons b bs ih =>
    intro m a k
    rw [Memory.writeList, ih, Memory.read_write]
    by_cases h1 : a + 1 ≤ k ∧ k < a + 1 + bs.length
    · have h2 : a ≤ k ∧ k < a + (b :: bs).length := by simp; omega
      have : k - a = (k - (a + 1)) + 1 := by omega
      rw [if_pos h1, if_pos h2, this, List.getD_cons_succ]
    · rw [if_neg h1]
      by_cases h3 : k = a
      · have h2 : a ≤ k ∧ k < a + (b :: bs).length := by simp; omega
        rw [if_pos h3, if_pos h2, h3, Nat.sub_self, List.getD_cons_zero]
      · have h2 : ¬ (a ≤ k ∧ k < a + (b :: bs).length) := by simp; omega
        rw [if_neg h3, if_neg h2]

/-! ## The canonical form -/

theorem Memory.wf_nil : Memory.wf [] := by simp [Memory.wf]

theorem Memory.wf_erase {m : Memory} (h : Memory.wf m) (a : Nat) : Memory.wf (Memory.erase m a) :=
  ⟨h.1.filter _, fun c hc => h.2 c (List.mem_of_mem_filter hc)⟩

theorem Memory.mem_insert (m : Memory) (c d : Host.Cell) : d ∈ Memory.insert m c ↔ d = c ∨ d ∈ m := by
  induction m with
  | nil => simp [Memory.insert]
  | cons e m ih =>
    rw [Memory.insert]
    split
    · simp
    · simp only [List.mem_cons, ih]
      tauto

theorem Memory.sorted_insert {m : Memory} (c : Host.Cell) (h : m.Pairwise fun d e => d.1 < e.1)
    (hc : ∀ d ∈ m, d.1 ≠ c.1) : (Memory.insert m c).Pairwise fun d e => d.1 < e.1 := by
  induction m with
  | nil => simp [Memory.insert]
  | cons e m ih =>
    rw [List.pairwise_cons] at h
    rw [Memory.insert]
    split
    · next hlt =>
      rw [List.pairwise_cons, List.pairwise_cons]
      refine ⟨fun d hd => ?_, h⟩
      rcases List.mem_cons.mp hd with rfl | hd
      · exact hlt
      · exact Nat.lt_trans hlt (h.1 d hd)
    · next hge =>
      rw [List.pairwise_cons]
      refine ⟨fun d hd => ?_, ih h.2 fun d hd => hc d (List.mem_cons_of_mem _ hd)⟩
      rcases (Memory.mem_insert m c d).mp hd with rfl | hd
      · have := hc e List.mem_cons_self
        omega
      · exact h.1 d hd

/-- A write inside the 4096 bytes keeps the canonical form. -/
theorem Memory.wf_write {m : Memory} (h : Memory.wf m) {a : Nat} (ha : a < memSize) (b : Byte) :
    Memory.wf (Memory.write m a b) := by
  unfold Memory.write
  by_cases hb : b = resetByte a
  · rw [if_pos hb]
    exact Memory.wf_erase h a
  · rw [if_neg hb]
    have he := Memory.wf_erase h a
    refine ⟨Memory.sorted_insert _ he.1 fun d hd => ?_, fun c hc => ?_⟩
    · simpa using (List.mem_filter.mp hd).2
    · rcases (Memory.mem_insert _ _ c).mp hc with rfl | hc
      · exact ⟨ha, hb⟩
      · exact he.2 c hc

theorem Memory.wf_writeList (bs : List Byte) : ∀ {m : Memory} {a : Nat}, Memory.wf m → a + bs.length ≤ memSize →
    Memory.wf (Memory.writeList m a bs) := by
  induction bs with
  | nil => intro m a h _; exact h
  | cons b bs ih =>
    intro m a h ha
    rw [List.length_cons] at ha
    exact ih (Memory.wf_write h (by omega) b) (by omega)

/-! ## The checked accesses (R55) -/

/-- All that MemRead can do. -/
theorem loadByte_ok {m : Memory} {p : Word} {a : Nat} {b : Byte} (h : loadByte m p a = .ok b) :
    a < memSize ∧ b = Memory.read m a := by
  unfold loadByte at h
  split at h
  · cases h
  · next hlt => cases h; exact ⟨by omega, rfl⟩

theorem loadByte_error {m : Memory} {p : Word} {a : Nat} {f : Fault} (h : loadByte m p a = .error f) :
    memSize ≤ a ∧ f = .addressOutOfRange a p := by
  unfold loadByte at h
  split at h
  · next hle => cases h; exact ⟨hle, rfl⟩
  · cases h

theorem loadByte_eq {m : Memory} {p : Word} {a : Nat} (h : a < memSize) :
    loadByte m p a = .ok (Memory.read m a) := by
  unfold loadByte
  rw [if_neg (by omega)]

theorem loadByte_eq_error {m : Memory} {p : Word} {a : Nat} (h : memSize ≤ a) :
    loadByte m p a = .error (.addressOutOfRange a p) := by
  unfold loadByte
  rw [if_pos h]

/-- A block store that lies in memory is the run of plain writes. -/
theorem storeBlock_eq (bs : List Byte) (p : Word) : ∀ (m : Memory) (a : Nat), a + bs.length ≤ memSize →
    storeBlock m p a bs = .ok (Memory.writeList m a bs) := by
  induction bs with
  | nil => intro m a _; rfl
  | cons b bs ih =>
    intro m a h
    rw [List.length_cons] at h
    have : ¬ memSize ≤ a := by omega
    simp only [storeBlock, storeByte, this, if_false, Memory.writeList]
    exact ih _ _ (by omega)

/-- A block store whose first address outside memory is its k-th faults there (R210). -/
theorem storeBlock_error_at (bs : List Byte) (p : Word) : ∀ (m : Memory) (a k : Nat), k < bs.length →
    memSize ≤ a + k → (∀ j, j < k → a + j < memSize) →
    storeBlock m p a bs = .error (.addressOutOfRange (a + k) p) := by
  induction bs with
  | nil => intro m a k hk; simp at hk
  | cons b bs ih =>
    intro m a k hk hbad hgood
    cases k with
    | zero => simp only [storeBlock, storeByte]; rw [if_pos (by omega)]; rfl
    | succ k =>
      have h0 := hgood 0 (by omega)
      have : ¬ memSize ≤ a := by omega
      simp only [storeBlock, storeByte, this, if_false]
      rw [ih _ (a + 1) k (by simpa using hk) (by omega) fun j hj => by have := hgood (j + 1) (by omega); omega]
      congr 2
      omega

/-- All that a block store can do: the block lies in memory and the writes are made, or an address ≥ 0x1000 ends it. -/
theorem storeBlock_ok (bs : List Byte) (p : Word) : ∀ {m m' : Memory} {a : Nat}, storeBlock m p a bs = .ok m' →
    (bs = [] ∨ a + bs.length ≤ memSize) ∧ m' = Memory.writeList m a bs := by
  induction bs with
  | nil => intro m m' a h; cases h; exact ⟨.inl rfl, rfl⟩
  | cons b bs ih =>
    intro m m' a h
    by_cases ha : memSize ≤ a
    · simp [storeBlock, storeByte, ha] at h
    · simp only [storeBlock, storeByte, ha, if_false] at h
      obtain ⟨h1, h2⟩ := ih h
      refine ⟨.inr ?_, h2⟩
      rw [List.length_cons]
      rcases h1 with rfl | h1
      · simp; omega
      · omega

theorem storeBlock_error (bs : List Byte) (p : Word) : ∀ {m : Memory} {a : Nat} {f : Fault},
    storeBlock m p a bs = .error f → ∃ k, memSize ≤ k ∧ f = .addressOutOfRange k p := by
  induction bs with
  | nil => intro m a f h; cases h
  | cons b bs ih =>
    intro m a f h
    by_cases ha : memSize ≤ a
    · simp [storeBlock, storeByte, ha] at h
      exact ⟨a, ha, h.symm⟩
    · simp only [storeBlock, storeByte, ha, if_false] at h
      exact ih h

/-- A block store keeps the canonical form. -/
theorem storeBlock_wf {m m' : Memory} {p : Word} {a : Nat} {bs : List Byte} (hm : Memory.wf m)
    (h : storeBlock m p a bs = .ok m') : Memory.wf m' := by
  obtain ⟨h1, rfl⟩ := storeBlock_ok bs p h
  rcases h1 with rfl | h1
  · exact hm
  · exact Memory.wf_writeList bs hm h1

/-- A block load that lies in memory answers its bytes in order. -/
theorem loadBlock_eq (m : Memory) (p : Word) : ∀ (n a : Nat), a + n ≤ memSize →
    loadBlock m p a n = .ok ((List.range n).map fun j => Memory.read m (a + j)) := by
  intro n
  induction n with
  | zero => intro a _; rfl
  | succ n ih =>
    intro a h
    simp only [loadBlock, loadByte_eq (m := m) (p := p) (a := a) (by omega), ih (a + 1) (by omega)]
    rw [List.range_succ_eq_map, List.map_cons, List.map_map]
    congr 2
    apply List.map_congr_left
    intro j _
    simp only [Function.comp_apply]
    congr 1
    omega

/-- A block load whose first address outside memory is its k-th faults there (R210). -/
theorem loadBlock_error_at (m : Memory) (p : Word) : ∀ (n a k : Nat), k < n → memSize ≤ a + k →
    (∀ j, j < k → a + j < memSize) → loadBlock m p a n = .error (.addressOutOfRange (a + k) p) := by
  intro n
  induction n with
  | zero => intro a k hk; omega
  | succ n ih =>
    intro a k hk hbad hgood
    cases k with
    | zero => simp only [loadBlock]; rw [loadByte_eq_error (by omega)]; rfl
    | succ k =>
      have h0 := hgood 0 (by omega)
      simp only [loadBlock]
      rw [loadByte_eq (by omega), ih (a + 1) k (by omega) (by omega) fun j hj => by
        have := hgood (j + 1) (by omega); omega]
      simp only
      congr 2
      omega

theorem loadBlock_error (m : Memory) (p : Word) : ∀ {n a : Nat} {f : Fault}, loadBlock m p a n = .error f →
    ∃ k, memSize ≤ k ∧ f = .addressOutOfRange k p := by
  intro n
  induction n with
  | zero => intro a f h; cases h
  | succ n ih =>
    intro a f h
    rw [loadBlock] at h
    split at h
    · next g hg => cases h; exact ⟨a, loadByte_error hg⟩
    · split at h
      · next g hg => cases h; exact ih hg
      · cases h

theorem loadBlock_ok_length (m : Memory) (p : Word) : ∀ {n a : Nat} {bs : List Byte},
    loadBlock m p a n = .ok bs → bs.length = n := by
  intro n
  induction n with
  | zero => intro a bs h; cases h; rfl
  | succ n ih =>
    intro a bs h
    rw [loadBlock] at h
    split at h
    · cases h
    · split at h
      · cases h
      · next bs' hbs => cases h; simp [ih hbs]

end Sys2Proof.Machine
end

