-- ==== Sys2Proof/Laws/Display.lean ====
section
/-! SUPPORT. The display: the pixels of a sprite row, and all that drawing the rows of a sprite can do. -/

namespace Sys2Proof.Machine

/-- The pixel of a sprite row at column px: bit 7 is the leftmost, clipped at the right edge (R171). -/
theorem getLsbD_spriteRow (x0 : Nat) (b : Byte) (px : Nat) (h : px < 64) :
    (spriteRow x0 b).getLsbD px = (decide (x0 ≤ px ∧ px < x0 + 8) && b.getLsbD (7 - (px - x0))) := by
  unfold spriteRow
  rw [BitVec.getLsbD_shiftLeft, BitVec.getLsbD_setWidth, BitVec.getLsbD_reverse, BitVec.getMsbD]
  by_cases h1 : x0 ≤ px
  · by_cases h2 : px < x0 + 8
    · have h3 : px - x0 < 8 := by omega
      have h4 : 8 - 1 - (px - x0) = 7 - (px - x0) := rfl
      have h5 : px - x0 < 64 := by omega
      have h6 : ¬ px < x0 := by omega
      simp [h, h1, h2, h3, h5, h6]
    · have h3 : ¬ px - x0 < 8 := by omega
      simp [h2, h3]
  · have h3 : px < x0 := by omega
    simp [h1, h3]

theorem Display.pixel_set (d : Display) (y : Nat) (hy : y < 32) (row : BitVec 64) (px py : Nat) :
    Display.pixel (d.set y row hy) px py = if py = y then row.getLsbD px else Display.pixel d px py := by
  unfold Display.pixel
  by_cases h : py = y
  · subst h
    simp [hy]
  · by_cases h2 : py < 32
    · rw [dif_pos h2, dif_pos h2, if_neg h, Vector.getElem_set_ne]
      omega
    · rw [dif_neg h2, dif_neg h2, if_neg h]

/-- Two displays with the same pixels are the same. -/
theorem Display.ext_pixel {d e : Display}
    (h : ∀ px py, px < 64 → py < 32 → Display.pixel d px py = Display.pixel e px py) : d = e := by
  apply Vector.ext
  intro y hy
  apply BitVec.eq_of_getLsbD_eq
  intro x hx
  simpa [Display.pixel, hy] using h x y hx hy

theorem pixel_replicate_zero (px py : Nat) : Display.pixel (Vector.replicate 32 0#64) px py = false := by
  unfold Display.pixel
  split <;> simp

/-- The pixels that rows r, .., r + rows - 1 of the sprite at `base` turn over. -/
def rowsPixel (m : Memory) (base x0 y0 rows r px py : Nat) : Bool :=
  decide (y0 + r ≤ py ∧ py < y0 + r + rows) && (spriteRow x0 (Memory.read m (base + (py - y0)))).getLsbD px

theorem rowsPixel_zero (m : Memory) (base x0 y0 r px py : Nat) : rowsPixel m base x0 y0 0 r px py = false := by
  simp [rowsPixel]

theorem rowsPixel_succ (m : Memory) (base x0 y0 rows r px py : Nat) :
    rowsPixel m base x0 y0 (rows + 1) r px py =
      if py = y0 + r then (spriteRow x0 (Memory.read m (base + r))).getLsbD px
      else rowsPixel m base x0 y0 rows (r + 1) px py := by
  unfold rowsPixel
  by_cases h : py = y0 + r
  · subst h
    have h2 : y0 + r - y0 = r := by omega
    simp [h2]
  · rw [if_neg h]
    congr 1
    rw [decide_eq_decide]
    omega

theorem row_and_ne_zero_iff (row sprite : BitVec 64) :
    (row &&& sprite != 0#64) = true ↔ ∃ px, px < 64 ∧ row.getLsbD px = true ∧ sprite.getLsbD px = true := by
  constructor
  · intro h
    by_contra hn
    apply (bne_iff_ne.mp h)
    apply BitVec.eq_of_getLsbD_eq
    intro i hi
    rw [BitVec.getLsbD_and, BitVec.getLsbD_zero, Bool.and_eq_false_iff]
    by_contra hc
    rw [not_or, Bool.not_eq_false, Bool.not_eq_false] at hc
    exact hn ⟨i, hi, hc⟩
  · rintro ⟨px, hx, h1, h2⟩
    rw [bne_iff_ne]
    intro h0
    have := congrArg (fun v => v.getLsbD px) h0
    simp [h1, h2] at this

/-- All that drawing rows can do when it ends without a fault: every row above the bottom edge was read inside memory,
exactly the sprite's pixels turn over, and a collision is a lit pixel among them. -/
theorem drawRows_ok (m : Memory) (p : Word) (base x0 y0 : Nat) : ∀ {rows r : Nat} {d d' : Display} {hit hit' : Bool},
    drawRows m p base x0 y0 rows r d hit = .ok (d', hit') →
    (∀ j, r ≤ j → j < r + rows → y0 + j < 32 → base + j < memSize) ∧
    (∀ px py, py < 32 →
      Display.pixel d' px py = (Display.pixel d px py ^^ rowsPixel m base x0 y0 rows r px py)) ∧
    (hit' = true ↔ hit = true ∨ ∃ px py, px < 64 ∧ py < 32 ∧ Display.pixel d px py = true ∧
      rowsPixel m base x0 y0 rows r px py = true) := by
  intro rows
  induction rows with
  | zero =>
    intro r d d' hit hit' h
    cases h
    refine ⟨fun j h1 h2 => by omega, fun px py _ => by simp [rowsPixel_zero], ?_⟩
    simp [rowsPixel_zero]
  | succ rows ih =>
    intro r d d' hit hit' h
    rw [drawRows] at h
    split at h
    · next hy =>
      split at h
      · cases h
      · next b hb =>
        obtain ⟨hlt, rfl⟩ := loadByte_ok hb
        obtain ⟨h1, h2, h3⟩ := ih h
        refine ⟨fun j hj1 hj2 hj3 => ?_, fun px py hpy => ?_, ?_⟩
        · by_cases hj : j = r
          · subst hj; exact hlt
          · exact h1 j (by omega) (by omega) hj3
        · rw [h2 px py hpy, Display.pixel_set, rowsPixel_succ]
          by_cases hp : py = y0 + r
          · subst hp
            have h0 : rowsPixel m base x0 y0 rows (r + 1) px (y0 + r) = false := by
              simp [rowsPixel]
            rw [if_pos rfl, if_pos rfl, h0, BitVec.getLsbD_xor]
            simp [Display.pixel, hy]
          · rw [if_neg hp, if_neg hp]
        · rw [h3, Bool.or_eq_true, row_and_ne_zero_iff]
          constructor
          · rintro ((hh | ⟨px, hx, e1, e2⟩) | ⟨px, py, hx, hpy, e1, e2⟩)
            · exact .inl hh
            · refine .inr ⟨px, y0 + r, hx, hy, by simpa [Display.pixel, hy] using e1, ?_⟩
              rw [rowsPixel_succ, if_pos rfl]
              exact e2
            · have hp : py ≠ y0 + r := by
                rintro rfl
                simp [rowsPixel] at e2
              rw [Display.pixel_set, if_neg hp] at e1
              refine .inr ⟨px, py, hx, hpy, e1, ?_⟩
              rw [rowsPixel_succ, if_neg hp]
              exact e2
          · rintro (hh | ⟨px, py, hx, hpy, e1, e2⟩)
            · exact .inl (.inl hh)
            · rw [rowsPixel_succ] at e2
              by_cases hp : py = y0 + r
              · subst hp
                rw [if_pos rfl] at e2
                exact .inl (.inr ⟨px, hx, by simpa [Display.pixel, hy] using e1, e2⟩)
              · rw [if_neg hp] at e2
                refine .inr ⟨px, py, hx, hpy, ?_, e2⟩
                rw [Display.pixel_set, if_neg hp]
                exact e1
    · next hy =>
      cases h
      have hz : ∀ px py, py < 32 → rowsPixel m base x0 y0 (rows + 1) r px py = false := by
        intro px py hpy
        have : ¬ (y0 + r ≤ py ∧ py < y0 + r + (rows + 1)) := by omega
        simp [rowsPixel, this]
      refine ⟨fun j h1 h2 h3 => by omega, fun px py hpy => by simp [hz px py hpy], ?_⟩
      constructor
      · exact .inl
      · rintro (hh | ⟨px, py, _, hpy, _, e2⟩)
        · exact hh
        · rw [hz px py hpy] at e2
          cases e2

/-- Drawing rows faults nowhere when every row above the bottom edge lies in memory. -/
theorem drawRows_isOk (m : Memory) (p : Word) (base x0 y0 : Nat) : ∀ {rows r : Nat} (d : Display) (hit : Bool),
    (∀ j, r ≤ j → j < r + rows → y0 + j < 32 → base + j < memSize) →
    ∃ q, drawRows m p base x0 y0 rows r d hit = .ok q := by
  intro rows
  induction rows with
  | zero => intro r d hit _; exact ⟨_, rfl⟩
  | succ rows ih =>
    intro r d hit h
    rw [drawRows]
    split
    · next hy =>
      rw [loadByte_eq (h r (by omega) (by omega) hy)]
      exact ih _ _ fun j h1 h2 h3 => h j (by omega) (by omega) h3
    · exact ⟨_, rfl⟩

/-- The first row above the bottom edge whose byte lies outside memory is where drawing faults (R171, R210). -/
theorem drawRows_error_at (m : Memory) (p : Word) (base x0 y0 : Nat) :
    ∀ {rows r : Nat} (d : Display) (hit : Bool) (k : Nat), k < rows → y0 + (r + k) < 32 → memSize ≤ base + (r + k) →
    (∀ j, r ≤ j → j < r + k → base + j < memSize) →
    drawRows m p base x0 y0 rows r d hit = .error (.addressOutOfRange (base + (r + k)) p) := by
  intro rows
  induction rows with
  | zero => intro r d hit k hk; omega
  | succ rows ih =>
    intro r d hit k hk hy hbad hgood
    rw [drawRows, dif_pos (by omega)]
    cases k with
    | zero => rw [loadByte_eq_error (by omega)]; rfl
    | succ k =>
      rw [loadByte_eq (hgood r (by omega) (by omega))]
      have := ih (r := r + 1) (d.set (y0 + r) (d[y0 + r] ^^^ spriteRow x0 (Memory.read m (base + r))))
        (hit || (d[y0 + r] &&& spriteRow x0 (Memory.read m (base + r))) != 0#64) k (by omega) (by omega) (by omega)
        fun j h1 h2 => hgood j (by omega) (by omega)
      simp only
      rw [this]
      congr 2
      omega

/-- A fault of drawing is an address outside memory. -/
theorem drawRows_error (m : Memory) (p : Word) (base x0 y0 : Nat) : ∀ {rows r : Nat} {d : Display} {hit : Bool}
    {f : Fault}, drawRows m p base x0 y0 rows r d hit = .error f →
    ∃ k, memSize ≤ k ∧ f = .addressOutOfRange k p := by
  intro rows
  induction rows with
  | zero => intro r d hit f h; cases h
  | succ rows ih =>
    intro r d hit f h
    rw [drawRows] at h
    split at h
    · split at h
      · next g hg => cases h; exact ⟨_, loadByte_error hg⟩
      · exact ih h
    · cases h

end Sys2Proof.Machine
end

