-- ==== Sys2Proof/Laws/Keys.lean ====
section
/-! SUPPORT. The key a sample selects: always a down key, and the only one where one is down; and the key index. -/

namespace Sys2Proof.Machine

theorem lowestKey_down (keys : BitVec 16) (h : keys ≠ 0#16) : keys.getLsbD (lowestKey keys).toNat = true := by
  unfold lowestKey
  cases hf : (List.range 16).find? fun k => keys.getLsbD k with
  | none =>
    exfalso
    apply h
    apply BitVec.eq_of_getLsbD_eq
    intro i hi
    have := List.find?_eq_none.mp hf i (List.mem_range.mpr hi)
    simpa using this
  | some k =>
    have hk := List.find?_some hf
    have hlt := List.mem_range.mp (List.mem_of_find?_eq_some hf)
    simpa [Nat.mod_eq_of_lt hlt] using hk

/-- Whatever the free value KEY_SELECT is, the selected key is down (R9, R192). -/
theorem selectKey_down (keys : BitVec 16) (h : keys ≠ 0#16) : keys.getLsbD (selectKey keys).toNat = true := by
  unfold selectKey
  split
  · exact lowestKey_down keys h
  · split
    · next hk => exact hk
    · exact lowestKey_down keys h

/-- Where one key is down, it is the one selected. -/
theorem selectKey_single (k : BitVec 4) : selectKey (1#16 <<< k.toNat) = k := by
  have h : ∀ k : BitVec 4, lowestKey (1#16 <<< k.toNat) = k := by decide
  unfold selectKey
  rw [h k, if_pos rfl]

theorem State.anyKey_eq_true_iff (s : State) : s.anyKey = true ↔ s.keys ≠ 0#16 := by
  simp [State.anyKey]

end Sys2Proof.Machine
end

