-- ==== Sys2Proof/Laws/PerInstr.lean ====
section
/-! SUPPORT. Statements for every instruction as syntax. EncodeMatchesRow: the word the encoder gives an instruction
matches that instruction's row of R90, and the row's fields of that word are the instruction's operands. -/

namespace Sys2Proof.Laws.EncodeMatchesRow

open Sys2Proof.Machine

/-- Some row of R90 (STRICT_5_9 off) has the mask and match of the encoded word and reads the instruction back from it. -/
def Statement (i : Instr) : Prop :=
  ∃ r ∈ opcodeRows false, r.matches (encode i) = true ∧ r.make (encode i) = i

/-- A row by its place in the table. -/
theorem of_row {i : Instr} {r : OpcodeRow} (k : Nat) (hk : (opcodeRows false)[k]? = some r)
    (h : encode i &&& r.mask = r.pat) (hm : r.make (encode i) = i) : Statement i :=
  ⟨r, List.mem_of_getElem? hk, by simpa [OpcodeRow.matches] using h, hm⟩

theorem clear : Statement .clear := of_row 0 rfl rfl rfl

theorem ret : Statement .ret := of_row 1 rfl rfl rfl

theorem jump (nnn : Imm12) : Statement (.jump nnn) :=
  of_row 2 rfl (by simp [encode, and_mask_F000]) (by simp [encode])

theorem callSubroutine (nnn : Imm12) : Statement (.callSubroutine nnn) :=
  of_row 3 rfl (by simp [encode, and_mask_F000]) (by simp [encode])

theorem skipIfEqual (x : RegIx) (nn : Imm8) : Statement (.skipIfEqual x nn) :=
  of_row 4 rfl (by simp [encode, and_mask_F000]) (by simp [encode])

theorem skipIfNotEqual (x : RegIx) (nn : Imm8) : Statement (.skipIfNotEqual x nn) :=
  of_row 5 rfl (by simp [encode, and_mask_F000]) (by simp [encode])

theorem skipIfRegEqual (x : RegIx) (y : RegIx) (n : Nibble) : Statement (.skipIfRegEqual x y n) :=
  of_row 6 rfl (by simp [encode, and_mask_F000, mask59]) (by simp [encode])

theorem setRegister (x : RegIx) (nn : Imm8) : Statement (.setRegister x nn) :=
  of_row 7 rfl (by simp [encode, and_mask_F000]) (by simp [encode])

theorem addRegister (x : RegIx) (nn : Imm8) : Statement (.addRegister x nn) :=
  of_row 8 rfl (by simp [encode, and_mask_F000]) (by simp [encode])

theorem copy (x : RegIx) (y : RegIx) : Statement (.copy x y) :=
  of_row 9 rfl (by simp [encode, and_mask_F00F]) (by simp [encode])

theorem bitOr (x : RegIx) (y : RegIx) : Statement (.bitOr x y) :=
  of_row 10 rfl (by simp [encode, and_mask_F00F]) (by simp [encode])

theorem bitAnd (x : RegIx) (y : RegIx) : Statement (.bitAnd x y) :=
  of_row 11 rfl (by simp [encode, and_mask_F00F]) (by simp [encode])

theorem bitXor (x : RegIx) (y : RegIx) : Statement (.bitXor x y) :=
  of_row 12 rfl (by simp [encode, and_mask_F00F]) (by simp [encode])

theorem add (x : RegIx) (y : RegIx) : Statement (.add x y) :=
  of_row 13 rfl (by simp [encode, and_mask_F00F]) (by simp [encode])

theorem subtract (x : RegIx) (y : RegIx) : Statement (.subtract x y) :=
  of_row 14 rfl (by simp [encode, and_mask_F00F]) (by simp [encode])

theorem shiftRight (x : RegIx) (y : RegIx) : Statement (.shiftRight x y) :=
  of_row 15 rfl (by simp [encode, and_mask_F00F]) (by simp [encode])

theorem subtractReverse (x : RegIx) (y : RegIx) : Statement (.subtractReverse x y) :=
  of_row 16 rfl (by simp [encode, and_mask_F00F]) (by simp [encode])

theorem shiftLeft (x : RegIx) (y : RegIx) : Statement (.shiftLeft x y) :=
  of_row 17 rfl (by simp [encode, and_mask_F00F]) (by simp [encode])

theorem skipIfRegNotEqual (x : RegIx) (y : RegIx) (n : Nibble) : Statement (.skipIfRegNotEqual x y n) :=
  of_row 18 rfl (by simp [encode, and_mask_F000, mask59]) (by simp [encode])

theorem setIndex (nnn : Imm12) : Statement (.setIndex nnn) :=
  of_row 19 rfl (by simp [encode, and_mask_F000]) (by simp [encode])

theorem jumpWithOffset (nnn : Imm12) : Statement (.jumpWithOffset nnn) :=
  of_row 20 rfl (by simp [encode, and_mask_F000]) (by simp [encode])

theorem random (x : RegIx) (nn : Imm8) : Statement (.random x nn) :=
  of_row 21 rfl (by simp [encode, and_mask_F000]) (by simp [encode])

theorem draw (x : RegIx) (y : RegIx) (n : Nibble) : Statement (.draw x y n) :=
  of_row 22 rfl (by simp [encode, and_mask_F000]) (by simp [encode])

theorem skipIfKeyPressed (x : RegIx) : Statement (.skipIfKeyPressed x) :=
  of_row 23 rfl (by simp [encode, and_mask_F0FF]) (by simp [encode])

theorem skipIfKeyNotPressed (x : RegIx) : Statement (.skipIfKeyNotPressed x) :=
  of_row 24 rfl (by simp [encode, and_mask_F0FF]) (by simp [encode])

theorem readDelayIntoRegister (x : RegIx) : Statement (.readDelayIntoRegister x) :=
  of_row 25 rfl (by simp [encode, and_mask_F0FF]) (by simp [encode])

theorem blockingKeyWait (x : RegIx) : Statement (.blockingKeyWait x) :=
  of_row 26 rfl (by simp [encode, and_mask_F0FF]) (by simp [encode])

theorem writeRegisterIntoDelay (x : RegIx) : Statement (.writeRegisterIntoDelay x) :=
  of_row 27 rfl (by simp [encode, and_mask_F0FF]) (by simp [encode])

theorem writeRegisterIntoSound (x : RegIx) : Statement (.writeRegisterIntoSound x) :=
  of_row 28 rfl (by simp [encode, and_mask_F0FF]) (by simp [encode])

theorem addIndex (x : RegIx) : Statement (.addIndex x) :=
  of_row 29 rfl (by simp [encode, and_mask_F0FF]) (by simp [encode])

theorem fontCharacterAddress (x : RegIx) : Statement (.fontCharacterAddress x) :=
  of_row 30 rfl (by simp [encode, and_mask_F0FF]) (by simp [encode])

theorem bcd (x : RegIx) : Statement (.bcd x) :=
  of_row 31 rfl (by simp [encode, and_mask_F0FF]) (by simp [encode])

theorem storeRegisters (x : RegIx) : Statement (.storeRegisters x) :=
  of_row 32 rfl (by simp [encode, and_mask_F0FF]) (by simp [encode])

theorem loadRegisters (x : RegIx) : Statement (.loadRegisters x) :=
  of_row 33 rfl (by simp [encode, and_mask_F0FF]) (by simp [encode])

end Sys2Proof.Laws.EncodeMatchesRow
end

