-- ==== Sys2Proof/Laws/Registers.lean ====
section
/-! SUPPORT. Reading a V register after a write, and the shared register operations. -/

namespace Sys2Proof.Machine

theorem State.reg_setReg (s : State) (x r : RegIx) (b : Byte) :
    (s.setReg x b).reg r = if r = x then b else s.reg r := by
  unfold State.reg State.setReg
  simp only [Vector.getElem_set, BitVec.toNat_inj, eq_comm]

@[simp] theorem State.reg_setReg_same (s : State) (x : RegIx) (b : Byte) : (s.setReg x b).reg x = b := by
  simp [State.reg_setReg]

@[simp] theorem State.reg_setReg_of_ne (s : State) {x r : RegIx} (b : Byte) (h : r ≠ x) :
    (s.setReg x b).reg r = s.reg r := by
  simp [State.reg_setReg, h]

@[simp] theorem State.reg_setVF_vf (s : State) (b : Byte) : (s.setVF b).reg vf = b :=
  State.reg_setReg_same s vf b

@[simp] theorem State.reg_setVF_of_ne (s : State) {r : RegIx} (b : Byte) (h : r ≠ vf) :
    (s.setVF b).reg r = s.reg r :=
  State.reg_setReg_of_ne s b h

@[simp] theorem State.reg_setV (s : State) (v : Vector Byte 16) (r : RegIx) :
    (s.setV v).reg r = v[r.toNat]'r.isLt := rfl

/-- The flag is what VF holds, whatever X is (R140). -/
@[simp] theorem State.reg_writeResultThenFlag_vf (s : State) (x : RegIx) (b : Byte) (f : Bool) :
    (s.writeResultThenFlag x b f).reg vf = flagByte f := by
  simp [State.writeResultThenFlag]

@[simp] theorem State.reg_writeResultThenFlag_result (s : State) {x : RegIx} (b : Byte) (f : Bool) (h : x ≠ vf) :
    (s.writeResultThenFlag x b f).reg x = b := by
  simp [State.writeResultThenFlag, h]

@[simp] theorem State.reg_writeResultThenFlag_other (s : State) {x r : RegIx} (b : Byte) (f : Bool)
    (hx : r ≠ x) (hf : r ≠ vf) : (s.writeResultThenFlag x b f).reg r = s.reg r := by
  simp [State.writeResultThenFlag, hx, hf]

/-- A write of one register, as a frame. -/
theorem setReg_eq_update (s : State) (x : RegIx) (b : Byte) :
    s.setReg x b = { s with v := (s.setReg x b).v } := rfl

/-- A result and a flag, as a frame. -/
theorem writeResultThenFlag_eq_update (s : State) (x : RegIx) (b : Byte) (f : Bool) :
    s.writeResultThenFlag x b f = { s with v := (s.writeResultThenFlag x b f).v } := rfl

theorem State.skipIf_true (s : State) : s.skipIf true = { s with pc := s.pc + 2#16 } := rfl

theorem State.skipIf_false (s : State) : s.skipIf false = s := rfl

/-- All that loading bytes into V[k..] does: register k + j gets byte j, every other register stays. -/
theorem getElem_writeRegs (bs : List Byte) : ∀ (v : Vector Byte 16) (k r : Nat) (hr : r < 16),
    (writeRegs v k bs)[r] = if h : k ≤ r ∧ r < k + bs.length then bs[r - k]'(by omega) else v[r] := by
  induction bs with
  | nil =>
    intro v k r hr
    simp [writeRegs]
  | cons b bs ih =>
    intro v k r hr
    rw [writeRegs, ih]
    by_cases h1 : k + 1 ≤ r ∧ r < k + 1 + bs.length
    · have h2 : k ≤ r ∧ r < k + (b :: bs).length := by simp; omega
      rw [dif_pos h1, dif_pos h2]
      have : r - k = (r - (k + 1)) + 1 := by omega
      simp [this]
    · rw [dif_neg h1]
      by_cases h3 : k = r
      · subst h3
        have h2 : k ≤ k ∧ k < k + (b :: bs).length := by simp
        rw [dif_pos h2]
        simp
      · have h2 : ¬ (k ≤ r ∧ r < k + (b :: bs).length) := by simp; omega
        rw [dif_neg h2, Vector.getElem_setIfInBounds_ne]
        exact h3

/-- The bytes FX55 stores: V[j] at place j (R153). -/
theorem getElem_regsUpTo (s : State) (x r : RegIx) (h : r.toNat < (s.regsUpTo x).length) :
    (s.regsUpTo x)[r.toNat] = s.reg r := by
  simp [State.regsUpTo, State.reg]

@[simp] theorem length_regsUpTo (s : State) (x : RegIx) : (s.regsUpTo x).length = x.toNat + 1 := by
  have := x.isLt
  simp [State.regsUpTo]
  omega

end Sys2Proof.Machine
end

