-- ==== Sys2Proof/Laws/Step.lean ====
section
/-! SUPPORT. What a fetch and a step can do: the one inversion lemma of the step, from which invariants are proved without
unfolding it. -/

namespace Sys2Proof.Machine

/-! ## Fetch (R70) -/

theorem fetch16_eq {s : State} (h : s.pc.toNat + 1 < memSize) :
    fetch16 s = .ok (wordOfBytes (s.peek s.pc.toNat) (s.peek (s.pc.toNat + 1))) := by
  unfold fetch16
  rw [loadByte_eq (by omega), loadByte_eq h]
  rfl

theorem fetch16_ok {s : State} {w : Word} (h : fetch16 s = .ok w) : s.wordAtPC = some w := by
  unfold fetch16 at h
  split at h
  · cases h
  · next hi hhi =>
    split at h
    · cases h
    · next lo hlo =>
      cases h
      obtain ⟨_, rfl⟩ := loadByte_ok hhi
      obtain ⟨h2, rfl⟩ := loadByte_ok hlo
      unfold State.wordAtPC
      rw [if_pos h2]
      rfl

theorem fetch16_of_wordAtPC {s : State} {w : Word} (h : s.wordAtPC = some w) : fetch16 s = .ok w := by
  unfold State.wordAtPC at h
  split at h
  · next hlt => rw [fetch16_eq hlt, Option.some.inj h]
  · cases h

/-- A fetch faults only on an address outside memory, with pc0 = PC (R205). -/
theorem fetch16_error {s : State} {f : Fault} (h : fetch16 s = .error f) :
    ∃ a, memSize ≤ a ∧ f = .addressOutOfRange a s.pc := by
  unfold fetch16 at h
  split at h
  · next g hg => cases h; exact ⟨_, loadByte_error hg⟩
  · split at h
    · next g hg => cases h; exact ⟨_, loadByte_error hg⟩
    · cases h

@[simp] theorem fetch16_sampleInputs (s : State) : fetch16 s.sampleInputs = fetch16 s := by
  unfold fetch16; simp

/-- What the inputs of a step are, in one lemma: both cases of the list the host fixes (R43; log 1). -/
theorem inputsTaken_sampleInputs (s : State) : s.inputsTaken s.sampleInputs := by
  unfold State.inputsTaken
  split
  · next h => rw [State.sampleInputs_of_cons h]; exact ⟨rfl, rfl, rfl, rfl⟩
  · next h => rw [State.sampleInputs_of_nil h]; exact ⟨rfl, rfl, h, rfl⟩

@[simp] theorem wordAtPC_sampleInputs (s : State) : s.sampleInputs.wordAtPC = s.wordAtPC := by
  unfold State.wordAtPC; simp

@[simp] theorem instrAtPC_sampleInputs (s : State) : s.sampleInputs.instrAtPC = s.instrAtPC := by
  unfold State.instrAtPC; simp

theorem instrAtPC_eq_some_iff {s : State} {i : Instr} :
    s.instrAtPC = some i ↔ ∃ w, s.wordAtPC = some w ∧ decodeWord s.cfg.strict59 w = .ok i := by
  unfold State.instrAtPC
  cases s.wordAtPC with
  | none => simp
  | some w =>
    cases hd : decodeWord s.cfg.strict59 w with
    | error e => simp [Except.toOption, hd]
    | ok j => simp [Except.toOption, hd]

/-! ## Dispatch and countdown -/

theorem afterDispatch_next {o : Host.Outcome State Fault Refusal} {t : State} (h : afterDispatch o = .next t) :
    ∃ u, o = .next u ∧ t = u.timerTick := by
  cases o with
  | next u => cases h; exact ⟨u, rfl, rfl⟩
  | fault f => cases h
  | refused r => cases h

theorem afterDispatch_fault {o : Host.Outcome State Fault Refusal} {f : Fault} (h : afterDispatch o = .fault f) :
    o = .fault f := by
  cases o with
  | next u => cases h
  | fault g => cases h; rfl
  | refused r => cases h

theorem step_of_not_running {s : State} (h : s.status ≠ .running) : step s = .next s := by
  unfold step stepStrobe
  cases hs : s.status with
  | running => exact absurd hs h
  | stopped => rfl
  | fatal f => rfl

theorem step_of_running {s : State} (h : s.status = .running) : step s = fetchAndDispatch s.sampleInputs := by
  unfold step stepStrobe
  rw [h]

/-- A running machine with a word at PC dispatches it and counts down (R74). -/
theorem step_of_wordAtPC {s : State} {w : Word} (hr : s.status = .running) (hw : s.wordAtPC = some w) :
    step s = afterDispatch (dispatchWord w s.sampleInputs) := by
  rw [step_of_running hr, fetchAndDispatch, fetch16_sampleInputs, fetch16_of_wordAtPC hw]

theorem dispatchWord_known {s : State} {w : Word} {i : Instr} (h : decodeWord s.cfg.strict59 w = .ok i) :
    dispatchWord w s = exec i (s.fetched w) := by
  unfold dispatchWord
  rw [h]

theorem dispatchWord_unknown {s : State} {w : Word} {e : DecodeReject} (h : decodeWord s.cfg.strict59 w = .error e) :
    dispatchWord w s = .next ((s.fetched w).reportUnknown w s.pc) := by
  unfold dispatchWord
  rw [h]

/-- All that a step to a next state can be: a machine that is not running stays as it is; an unknown word is reported; an
instruction is executed. In the last two the countdown follows. -/
theorem step_cases {s t : State} (h : step s = .next t) :
    (s.status ≠ .running ∧ t = s) ∨
    (s.status = .running ∧ ∃ w, s.wordAtPC = some w ∧
      ((s.instrAtPC = none ∧ (∃ e, decodeWord s.cfg.strict59 w = .error e) ∧
          t = ((s.sampleInputs.fetched w).reportUnknown w s.pc).timerTick) ∨
        ∃ i u, s.instrAtPC = some i ∧ decodeWord s.cfg.strict59 w = .ok i ∧
          exec i (s.sampleInputs.fetched w) = .next u ∧ t = u.timerTick)) := by
  by_cases hr : s.status = .running
  · refine .inr ⟨hr, ?_⟩
    rw [step_of_running hr, fetchAndDispatch, fetch16_sampleInputs] at h
    split at h
    · cases h
    · next w hw =>
      have hw := fetch16_ok hw
      refine ⟨w, hw, ?_⟩
      obtain ⟨u, hu, rfl⟩ := afterDispatch_next h
      cases hd : decodeWord s.cfg.strict59 w with
      | error e =>
        rw [dispatchWord_unknown (e := e) (by simpa using hd)] at hu
        cases hu
        refine .inl ⟨?_, ⟨e, rfl⟩, by simp⟩
        unfold State.instrAtPC
        simp [hw, hd, Except.toOption]
      | ok i =>
        rw [dispatchWord_known (i := i) (by simpa using hd)] at hu
        exact .inr ⟨i, u, instrAtPC_eq_some_iff.mpr ⟨w, hw, hd⟩, rfl, hu, rfl⟩
  · rw [step_of_not_running hr] at h
    cases h
    exact .inl ⟨hr, rfl⟩

/-- A step that runs the instruction at PC to a next state. -/
theorem step_of_instrAtPC {s : State} {i : Instr} (hr : s.status = .running) (hi : s.instrAtPC = some i) :
    ∃ w, s.wordAtPC = some w ∧ step s = afterDispatch (exec i (s.sampleInputs.fetched w)) := by
  obtain ⟨w, hw, hd⟩ := instrAtPC_eq_some_iff.mp hi
  exact ⟨w, hw, by rw [step_of_wordAtPC hr hw, dispatchWord_known (by simpa using hd)]⟩

/-! ## What no instruction touches -/

/-- No instruction writes cfg, status, diag_word, the input ports, the outputs or the model's own fields. -/
theorem exec_keeps_environment {i : Instr} {s t : State} (h : exec i s = .next t) :
    t.cfg = s.cfg ∧ t.status = s.status ∧ t.diagWord = s.diagWord ∧ t.keys = s.keys ∧ t.rnd = s.rnd ∧
      t.soundPulse = s.soundPulse ∧ t.unknownReport = s.unknownReport ∧ t.inputs = s.inputs ∧ t.draws = s.draws := by
  cases i
  case ret =>
    rw [exec, execReturn] at h
    split at h
    · cases h
    · cases h; simp
  case callSubroutine nnn =>
    rw [exec, execCallSubroutine] at h
    split at h
    · cases h
    · cases h; simp
  case draw x y n =>
    rw [exec, execDraw] at h
    split at h
    · cases h
    · cases h; simp
  case skipIfKeyPressed x =>
    rw [exec, execSkipIfKeyPressed] at h
    split at h
    · cases h
    · cases h; simp
  case skipIfKeyNotPressed x =>
    rw [exec, execSkipIfKeyNotPressed] at h
    split at h
    · cases h
    · cases h; simp
  case blockingKeyWait x =>
    rw [exec, execBlockingKeyWait] at h
    cases h
    split <;> simp
  case addIndex x =>
    rw [exec, execAddIndex] at h
    cases h
    split <;> simp
  case bcd x =>
    rw [exec, execBcd] at h
    split at h
    · cases h
    · cases h; simp
  case storeRegisters x =>
    rw [exec, execStoreRegisters] at h
    split at h
    · cases h
    · cases h; simp
  case loadRegisters x =>
    rw [exec, execLoadRegisters] at h
    split at h
    · cases h
    · cases h; simp
  all_goals
    cases h
    simp

end Sys2Proof.Machine
end

