-- ==== Sys2Proof/Tests/Slice0.lean ====
section
/-! SUPPORT. The model's own tests: the checks of WellFormed, decoding from words written out bit by bit from the formats
R77-R83 and the match column of R90, one step per test from the vectors of spec/95_test_vectors.md (named in each comment),
and a witness for the hypotheses of every statement that has some. -/

set_option Elab.async false

namespace Sys2Proof.Tests

open Sys2Proof Sys2Proof.Machine

/-! ## Builders and observers -/

/-- The state after reset with the word `w` at PC (0x200). -/
def prog (w : Nat) : State := State.reset.withFetchWord 16 w

/-- The state after reset with PC = `pc` and the word `w` there. -/
def progAt (pc : Word) (w : Nat) : State := (State.reset.setPC pc).withFetchWord 16 w

/-- Memory with the given bytes stored from `a` on. -/
def poke (s : State) (a : Nat) (bs : List Byte) : State := s.setMem (Memory.writeList s.mem a bs)

/-- The host has fixed the next step's keys and draw. -/
def given (s : State) (keys : BitVec 16) (rnd : Byte) : State := { s with inputs := [⟨keys, rnd⟩] }

/-- cfg with other values than its defaults. -/
def configured (f : Config → Config) (s : State) : State := { s with cfg := f s.cfg }

/-- The next state, when there is one. -/
def nextState : Host.Outcome State Fault Refusal → Option State
  | .next t => some t
  | .fault _ => none
  | .refused _ => none

/-- The fault, when there is one. -/
def faultOf : Host.Outcome State Fault Refusal → Option Fault
  | .next _ => none
  | .fault f => some f
  | .refused _ => none

/-- One observation of the state after one step. -/
def after {α : Type} (s : State) (f : State → α) : Option α := (nextState (step s)).map f

theorem next_of_nextState {o : Host.Outcome State Fault Refusal} (h : (nextState o).isSome = true) :
    ∃ t, o = .next t := by
  cases o with
  | next t => exact ⟨t, rfl⟩
  | fault f => cases h
  | refused r => cases h

theorem fault_of_faultOf {o : Host.Outcome State Fault Refusal} (h : (faultOf o).isSome = true) :
    ∃ f, o = .fault f := by
  cases o with
  | next t => cases h
  | fault f => exact ⟨f, rfl⟩
  | refused r => cases h

/-- How many pixels are lit. -/
def litCount (s : State) : Nat :=
  ((List.range 2048).filter fun n => s.dispPort n).length

/-! ## WellFormed refuses each ill-formed term (R92) -/

theorem test_wellFormed_refuses_5XY1_strict : (Instr.skipIfRegEqual 1#4 2#4 1#4).wellFormed true = false := by decide

theorem test_wellFormed_refuses_9XY1_strict : (Instr.skipIfRegNotEqual 1#4 2#4 1#4).wellFormed true = false := by decide

theorem test_wellFormed_accepts_5XY1_default : (Instr.skipIfRegEqual 1#4 2#4 1#4).wellFormed false = true := by decide

/-! ## Decoding is right: words written bit by bit, family by family -/

theorem test_decode_control_flow :
    decodeWord false 0b0000_0000_1110_1110#16 = .ok .ret ∧
    decodeWord false 0b0001_1010_1011_1100#16 = .ok (.jump 0xABC#12) ∧
    decodeWord false 0b0010_0011_0100_0101#16 = .ok (.callSubroutine 0x345#12) ∧
    decodeWord false 0b0011_1010_0101_1100#16 = .ok (.skipIfEqual 0xA#4 0x5C#8) ∧
    decodeWord false 0b0100_1010_0101_1100#16 = .ok (.skipIfNotEqual 0xA#4 0x5C#8) ∧
    decodeWord false 0b0101_0111_1001_0000#16 = .ok (.skipIfRegEqual 7#4 9#4 0#4) ∧
    decodeWord false 0b1001_0111_1001_0000#16 = .ok (.skipIfRegNotEqual 7#4 9#4 0#4) ∧
    decodeWord false 0b1011_0001_0010_0011#16 = .ok (.jumpWithOffset 0x123#12) := by decide

theorem test_decode_immediate :
    decodeWord false 0b0110_1110_0001_0010#16 = .ok (.setRegister 0xE#4 0x12#8) ∧
    decodeWord false 0b0111_1110_0001_0010#16 = .ok (.addRegister 0xE#4 0x12#8) ∧
    decodeWord false 0b1010_0101_0110_0111#16 = .ok (.setIndex 0x567#12) ∧
    decodeWord false 0b1100_0011_0000_1111#16 = .ok (.random 3#4 0x0F#8) := by decide

theorem test_decode_alu :
    decodeWord false 0b1000_0110_1101_0000#16 = .ok (.copy 6#4 0xD#4) ∧
    decodeWord false 0b1000_0110_1101_0001#16 = .ok (.bitOr 6#4 0xD#4) ∧
    decodeWord false 0b1000_0110_1101_0010#16 = .ok (.bitAnd 6#4 0xD#4) ∧
    decodeWord false 0b1000_0110_1101_0011#16 = .ok (.bitXor 6#4 0xD#4) ∧
    decodeWord false 0b1000_0110_1101_0100#16 = .ok (.add 6#4 0xD#4) ∧
    decodeWord false 0b1000_0110_1101_0101#16 = .ok (.subtract 6#4 0xD#4) ∧
    decodeWord false 0b1000_0110_1101_0110#16 = .ok (.shiftRight 6#4 0xD#4) ∧
    decodeWord false 0b1000_0110_1101_0111#16 = .ok (.subtractReverse 6#4 0xD#4) ∧
    decodeWord false 0b1000_0110_1101_1110#16 = .ok (.shiftLeft 6#4 0xD#4) := by decide

theorem test_decode_display :
    decodeWord false 0b0000_0000_1110_0000#16 = .ok .clear ∧
    decodeWord false 0b1101_1011_0100_1111#16 = .ok (.draw 0xB#4 4#4 0xF#4) := by decide

theorem test_decode_input_and_timers :
    decodeWord false 0b1110_0101_1001_1110#16 = .ok (.skipIfKeyPressed 5#4) ∧
    decodeWord false 0b1110_0101_1010_0001#16 = .ok (.skipIfKeyNotPressed 5#4) ∧
    decodeWord false 0b1111_1000_0000_1010#16 = .ok (.blockingKeyWait 8#4) ∧
    decodeWord false 0b1111_1000_0000_0111#16 = .ok (.readDelayIntoRegister 8#4) ∧
    decodeWord false 0b1111_1000_0001_0101#16 = .ok (.writeRegisterIntoDelay 8#4) ∧
    decodeWord false 0b1111_1000_0001_1000#16 = .ok (.writeRegisterIntoSound 8#4) := by decide

theorem test_decode_memory_index :
    decodeWord false 0b1111_1001_0001_1110#16 = .ok (.addIndex 9#4) ∧
    decodeWord false 0b1111_1001_0010_1001#16 = .ok (.fontCharacterAddress 9#4) ∧
    decodeWord false 0b1111_1001_0011_0011#16 = .ok (.bcd 9#4) ∧
    decodeWord false 0b1111_1001_0101_0101#16 = .ok (.storeRegisters 9#4) ∧
    decodeWord false 0b1111_1001_0110_0101#16 = .ok (.loadRegisters 9#4) := by decide

/-- One word for each name of DecodeReject (R86-R89, R92; a lone byte is no word). -/
theorem test_decode_rejects_by_name :
    decodeWord false 0b0000_0000_1110_0001#16 = .error .unknownClass0 ∧
    decodeWord false 0b1000_0001_0010_1000#16 = .error .unknownClass8 ∧
    decodeWord false 0b1110_0001_1001_1111#16 = .error .unknownClassE ∧
    decodeWord false 0b1111_0001_0000_0000#16 = .error .unknownClassF ∧
    decodeWord true 0b1001_0001_0010_0001#16 = .error .strictLowNibble ∧
    decodeBytes false [0x12#8] = .error .truncated := by decide

/-! ## Fetch and the step -/

/-- V-DEC-1. -/
theorem test_fetch_is_big_endian :
    after (poke State.reset 0x200 [0x12#8, 0x34#8]) (fun t => (t.pc, t.diagWord)) = some (0x234#16, 0x1234#16) := by
  decide +kernel

/-- V-DEC-3, V-DEC-9: no countdown in a fatal step. -/
theorem test_fetch_at_last_byte_is_fatal :
    faultOf (step { State.reset with pc := 0xFFF#16, dt := 3#8 }) = some (.addressOutOfRange 0x1000 0xFFF#16) ∧
    (strobe { State.reset with pc := 0xFFF#16, dt := 3#8 }).dt = 3#8 := by decide +kernel

/-- V-DEC-4: no alignment rule. -/
theorem test_odd_pc_runs :
    after (progAt 0x201#16 0x6005) (fun t => (t.reg 0#4, t.pc)) = some (0x05#8, 0x203#16) := by decide +kernel

/-- V-DEC-5, V-RST-3: an unknown word is reported and skipped. -/
theorem test_unknown_word_is_reported :
    after State.reset (fun t => (t.pc, t.unknownReport)) = some (0x202#16, some ⟨0x0000#16, 0x200#16⟩) := by decide +kernel

/-- V-DEC-8: the countdown of a step with no timer instruction. -/
theorem test_countdown :
    after { prog 0x6005 with dt := 3#8, st := 3#8 } (fun t => (t.dt, t.st, t.soundPulse)) = some (2#8, 2#8, true) := by
  decide +kernel

/-- R43, R194: the oldest pair the host has fixed is the step's, and is used up. -/
theorem test_step_takes_fixed_inputs :
    after { prog 0xC3FF with inputs := [⟨0x8001#16, 0xB6#8⟩, ⟨0x0002#16, 0x11#8⟩] }
      (fun t => (t.keys, t.rnd, t.reg 3#4, t.inputs, t.draws)) =
      some (0x8001#16, 0xB6#8, 0xB6#8, [⟨0x0002#16, 0x11#8⟩], 0) := by decide +kernel

/-- R123: steps with free inputs have numbers of their own, so that they draw independently. -/
theorem test_step_counts_free_inputs : after { prog 0x6005 with draws := 4 } (fun t => (t.inputs, t.draws)) =
    some ([], 5) := by decide +kernel

/-- R203's table, row by row. -/
theorem test_condition_codes :
    (State.reset.reportUnknown 0x0000#16 0x200#16).unknownReport.map UnknownReport.code = some 1 ∧
    (Fault.addressOutOfRange 0x1000 0x200#16).code = 2 ∧ (Fault.stackUnderflow 0x200#16).code = 3 ∧
    (Fault.stackOverflow 0x200#16).code = 4 ∧ (Fault.keyIndexOutOfRange 0x10#8 0x200#16).code = 5 ∧
    (Fault.romTooLarge 3585).code = 6 := by decide

/-! ## Control flow -/

/-- V-CF-1. -/
theorem test_return_pops :
    after { progAt 0x300#16 0x00EE with stack := [0x204#16] } (fun t => (t.pc, t.stack)) = some (0x204#16, []) := by
  decide +kernel

/-- V-CF-2. -/
theorem test_return_underflows : faultOf (step (prog 0x00EE)) = some (.stackUnderflow 0x200#16) := by decide +kernel

/-- V-CF-5. -/
theorem test_jump : after (prog 0x1FFF) State.pc = some 0xFFF#16 := by decide +kernel

/-- V-CF-7: the pushed return address is 0x1000. -/
theorem test_call_at_top_of_memory :
    after (progAt 0xFFE#16 0x2300) (fun t => (t.pc, t.stack)) = some (0x300#16, [0x1000#16]) := by decide +kernel

/-- V-CF-8, with a limit of 2. -/
theorem test_call_overflows_at_limit :
    faultOf (step (configured (fun c => { c with stackLimit := some 2 })
      { prog 0x2300 with stack := [0x204#16, 0x206#16] })) = some (.stackOverflow 0x200#16) ∧
    after (configured (fun c => { c with stackLimit := some 2 }) { prog 0x2300 with stack := [0x204#16] })
      (fun t => t.stack.length) = some 2 := by decide +kernel

/-- V-CF-10, V-CF-11. -/
theorem test_skip_if_equal :
    after ((prog 0x3310).setReg 3#4 0x10#8) State.pc = some 0x204#16 ∧
    after ((prog 0x3310).setReg 3#4 0x11#8) State.pc = some 0x202#16 := by decide +kernel

/-- V-CF-12. -/
theorem test_skip_if_not_equal :
    after ((prog 0x4310).setReg 3#4 0x11#8) State.pc = some 0x204#16 ∧
    after ((prog 0x4310).setReg 3#4 0x10#8) State.pc = some 0x202#16 := by decide +kernel

/-- V-DEC-6: the low nibble is ignored, unless STRICT_5_9. -/
theorem test_skip_if_reg_equal_low_nibble :
    after (prog 0x5121) State.pc = some 0x204#16 ∧
    after (configured (fun c => { c with strict59 := true }) (prog 0x5121)) State.pc = some 0x202#16 := by decide +kernel

/-- V-CF-15. -/
theorem test_skip_if_reg_not_equal :
    after (((prog 0x9120).setReg 1#4 7#8).setReg 2#4 8#8) State.pc = some 0x204#16 ∧
    after (prog 0x9110) State.pc = some 0x202#16 := by decide +kernel

/-- V-CF-20: no wrap at 0x1000. -/
theorem test_jump_with_offset : after ((prog 0xBFFF).setReg 0#4 0xFF#8) State.pc = some 0x10FE#16 := by decide +kernel

/-- V-CF-21. -/
theorem test_jump_with_offset_vx :
    after (configured (fun c => { c with jumpOffsetUsesVX := true })
      (((prog 0xB300).setReg 3#4 0x10#8).setReg 0#4 4#8)) State.pc = some 0x310#16 := by decide +kernel

/-! ## Immediate -/

/-- V-IMM-2. -/
theorem test_set_register_vf : after (prog 0x6F01) (fun t => t.reg vf) = some 1#8 := by decide +kernel

/-- V-IMM-3: no carry flag. -/
theorem test_add_register_wraps :
    after (((prog 0x7220).setReg 2#4 0xF0#8).setReg vf 7#8) (fun t => (t.reg 2#4, t.reg vf)) = some (0x10#8, 7#8) := by
  decide +kernel

/-- V-IMM-6. -/
theorem test_set_index : after { prog 0xA2F0 with i := 0xFFFF#16 } State.i = some 0x02F0#16 := by decide +kernel

/-- V-IMM-7. -/
theorem test_random_masks : after (given (prog 0xC30F) 0#16 0xB6#8) (fun t => t.reg 3#4) = some 0x06#8 := by decide +kernel

/-! ## ALU -/

/-- V-ALU-1. -/
theorem test_copy : after ((prog 0x8010).setReg 1#4 0x3C#8) (fun t => t.reg 0#4) = some 0x3C#8 := by decide +kernel

/-- V-ALU-2: VF is not reset. -/
theorem test_or :
    after ((((prog 0x8011).setReg 0#4 0xF0#8).setReg 1#4 0x0F#8).setReg vf 5#8) (fun t => (t.reg 0#4, t.reg vf)) =
      some (0xFF#8, 5#8) := by decide +kernel

/-- V-ALU-3. -/
theorem test_and :
    after (((prog 0x8012).setReg 0#4 0xF3#8).setReg 1#4 0x3F#8) (fun t => t.reg 0#4) = some 0x33#8 := by decide +kernel

/-- V-ALU-4. -/
theorem test_xor :
    after (((prog 0x8013).setReg 0#4 0xFF#8).setReg 1#4 0x0F#8) (fun t => t.reg 0#4) = some 0xF0#8 := by decide +kernel

/-- V-ALU-9: with X = F the flag wins. -/
theorem test_add_into_flag : after ((prog 0x8FF4).setReg vf 0x80#8) (fun t => t.reg vf) = some 1#8 := by decide +kernel

/-- V-ALU-11: old VF is the addend. -/
theorem test_add_old_flag_operand :
    after (((prog 0x80F4).setReg 0#4 0xFF#8).setReg vf 1#8) (fun t => (t.reg 0#4, t.reg vf)) = some (0#8, 1#8) := by
  decide +kernel

/-- V-ALU-12: equal operands do not borrow. -/
theorem test_subtract_equal :
    after (((prog 0x8125).setReg 1#4 0x42#8).setReg 2#4 0x42#8) (fun t => (t.reg 1#4, t.reg vf)) = some (0#8, 1#8) := by
  decide +kernel

/-- V-ALU-13. -/
theorem test_subtract_borrows :
    after ((prog 0x8125).setReg 2#4 1#8) (fun t => (t.reg 1#4, t.reg vf)) = some (0xFF#8, 0#8) := by decide +kernel

/-- V-ALU-17. -/
theorem test_subtract_reverse_borrows :
    after (((prog 0x8127).setReg 1#4 5#8).setReg 2#4 3#8) (fun t => (t.reg 1#4, t.reg vf)) = some (0xFE#8, 0#8) := by
  decide +kernel

/-- V-ALU-22, V-ALU-23. -/
theorem test_shift_right :
    after ((prog 0x8F06).setReg vf 2#8) (fun t => t.reg vf) = some 0#8 ∧
    after (((prog 0x8016).setReg 0#4 0xFF#8).setReg 1#4 5#8) (fun t => (t.reg 0#4, t.reg vf)) = some (0x7F#8, 1#8) := by
  decide +kernel

/-- V-ALU-28: under SHIFT_COPIES_VY. -/
theorem test_shift_right_copies :
    after (configured (fun c => { c with shiftCopiesVY := true }) ((prog 0x80F6).setReg vf 3#8))
      (fun t => (t.reg 0#4, t.reg vf)) = some (1#8, 1#8) := by decide +kernel

/-- V-ALU-24. -/
theorem test_shift_left :
    after ((prog 0x810E).setReg 1#4 0x80#8) (fun t => (t.reg 1#4, t.reg vf)) = some (0#8, 1#8) := by decide +kernel

/-- V-ALU-27: under SHIFT_COPIES_VY. -/
theorem test_shift_left_copies :
    after (configured (fun c => { c with shiftCopiesVY := true })
      (((prog 0x801E).setReg 0#4 1#8).setReg 1#4 0x81#8)) (fun t => (t.reg 0#4, t.reg vf)) = some (2#8, 1#8) := by
  decide +kernel

/-! ## Memory and index -/

/-- V-MEM-4: the sum is kept modulo 2^16 and flagged. -/
theorem test_add_index_wraps :
    after { (prog 0xF21E).setReg 2#4 1#8 with i := 0xFFFF#16 } (fun t => (t.i, t.reg vf)) = some (0#16, 1#8) := by
  decide +kernel

/-- V-MEM-2: the flag is not cleared. -/
theorem test_add_index_keeps_flag :
    after { ((prog 0xF21E).setReg 2#4 1#8).setReg vf 7#8 with i := 0xFFE#16 } (fun t => (t.i, t.reg vf)) =
      some (0xFFF#16, 7#8) := by decide +kernel

/-- V-MEM-8: low nibble only. -/
theorem test_font_address : after ((prog 0xF429).setReg 4#4 0x1A#8) State.i = some 0x082#16 := by decide +kernel

/-- V-MEM-10. -/
theorem test_bcd_digits :
    after { (prog 0xF033).setReg 0#4 0xFF#8 with i := 0x300#16 } (fun t => (t.peek 0x300, t.peek 0x301, t.peek 0x302)) =
      some (2#8, 5#8, 5#8) := by decide +kernel

/-- V-MEM-13. -/
theorem test_bcd_faults_at_top :
    faultOf (step { (prog 0xF033).setReg 0#4 0x9C#8 with i := 0xFFE#16 }) = some (.addressOutOfRange 0x1000 0x200#16) := by
  decide +kernel

/-- V-MEM-15. -/
theorem test_store_increments_index :
    after (configured (fun c => { c with loadStoreIncrementsI := true })
      { ((prog 0xF355).setReg 0#4 0x11#8).setReg 3#4 0x44#8 with i := 0x300#16 })
      (fun t => (t.peek 0x300, t.peek 0x303, t.i)) = some (0x11#8, 0x44#8, 0x304#16) := by decide +kernel

/-- V-MEM-22: a store changes what is fetched next. -/
theorem test_store_modifies_code :
    (after { (prog 0xF155).setReg 1#4 0xE0#8 with i := 0x202#16 } State.instrAtPC) = some (some .clear) := by decide +kernel

/-- V-MEM-19. -/
theorem test_load_registers :
    after { poke (prog 0xF265) 0x300 [1#8, 5#8, 6#8] with i := 0x300#16 }
      (fun t => (t.reg 0#4, t.reg 1#4, t.reg 2#4, t.i)) = some (1#8, 5#8, 6#8, 0x300#16) := by decide +kernel

/-- V-MEM-21. -/
theorem test_load_checks_index_first :
    faultOf (step (configured (fun c => { c with loadStoreIncrementsI := true }) { prog 0xF065 with i := 0xFFF0#16 })) =
      some (.addressOutOfRange 0xFFF0 0x200#16) := by decide +kernel

/-! ## Display -/

/-- V-DSP-1. -/
theorem test_clear :
    after { prog 0x00E0 with disp := Vector.replicate 32 (0#64).not } litCount = some 0 := by decide +kernel

/-- V-DSP-2: the glyph 0 at the top left corner. -/
theorem test_draw_glyph :
    after { prog 0xD015 with i := 0x050#16 }
      (fun t => (litCount t, t.pixel 3 1, t.pixel 1 1, t.pixel 0 4, t.reg vf)) = some (14, true, false, true, 0#8) := by
  decide +kernel

/-- V-DSP-11: a lit pixel turned off is a collision. -/
theorem test_draw_collision :
    after { (poke (prog 0xD011) 0x300 [0x40#8]).setReg 0#4 60#8 with
      i := 0x300#16, disp := (Vector.replicate 32 0#64).set 0 (1#64 <<< 61) }
      (fun t => (litCount t, t.reg vf)) = some (0, 1#8) := by decide +kernel

/-! ## Timers -/

/-- V-TMR-1. -/
theorem test_read_delay : after { prog 0xF307 with dt := 5#8 } (fun t => (t.reg 3#4, t.dt)) = some (5#8, 4#8) := by
  decide +kernel

/-- V-TMR-3. -/
theorem test_write_delay : after ((prog 0xF115).setReg 1#4 0x3C#8) State.dt = some 0x3B#8 := by decide +kernel

/-- V-TMR-6, V-TMR-7. -/
theorem test_write_sound :
    after ((prog 0xF218).setReg 2#4 2#8) (fun t => (t.st, t.soundPulse)) = some (1#8, true) ∧
    after { prog 0xF218 with st := 5#8 } (fun t => (t.st, t.soundPulse)) = some (0#8, false) := by decide +kernel

/-! ## Input -/

/-- V-KEY-1, V-KEY-2. -/
theorem test_skip_if_key_pressed :
    after (given ((prog 0xE59E).setReg 5#4 0xA#8) 0x0400#16 0#8) State.pc = some 0x204#16 ∧
    after (given ((prog 0xE59E).setReg 5#4 0xA#8) 0x0000#16 0#8) State.pc = some 0x202#16 := by decide +kernel

/-- V-KEY-5. -/
theorem test_key_index_is_fatal :
    faultOf (step (given ((prog 0xE59E).setReg 5#4 0x10#8) 0#16 0#8)) = some (.keyIndexOutOfRange 0x10#8 0x200#16) := by
  decide +kernel

/-- V-KEY-4. -/
theorem test_skip_if_key_not_pressed :
    after (given ((prog 0xE5A1).setReg 5#4 0xA#8) 0x0008#16 0#8) State.pc = some 0x204#16 := by decide +kernel

/-- V-KEY-6: under mask_low_nibble. -/
theorem test_key_index_masked :
    after (configured (fun c => { c with keyIndexPolicy := .maskLowNibble })
      (given ((prog 0xE5A1).setReg 5#4 0xFA#8) 0x0400#16 0#8)) State.pc = some 0x202#16 := by decide +kernel

/-- V-KEY-7: the wait. -/
theorem test_key_wait_rewinds :
    after (given { (prog 0xF30A).setReg 3#4 9#8 with dt := 2#8 } 0#16 0#8) (fun t => (t.pc, t.reg 3#4, t.dt)) =
      some (0x200#16, 9#8, 1#8) := by decide +kernel

/-- V-KEY-8: one key down, no choice of KEY_SELECT. -/
theorem test_key_wait_latches :
    after (given (prog 0xF30A) 0x0080#16 0#8) (fun t => (t.pc, t.reg 3#4)) = some (0x202#16, 7#8) := by decide +kernel

/-! ## Reset -/

/-- V-RST-4: the font and the zeros below it. -/
theorem test_reset_memory :
    (List.range 5).map (fun k => State.reset.peek (0x50 + k)) = [0xF0#8, 0x90#8, 0x90#8, 0x90#8, 0xF0#8] ∧
    State.reset.peek 0x4F = 0#8 ∧ State.reset.peek 0xA0 = 0#8 := by decide +kernel

/-- V-RST-5: a ROM of three bytes. -/
theorem test_rom_of_three_bytes :
    (construct defaultConfig State.reset.v 0#16 [0x60#8, 0x05#8, 0x12#8]).wordAtPC = some 0x6005#16 ∧
    (construct defaultConfig State.reset.v 0#16 [0x60#8, 0x05#8, 0x12#8]).peek 0x203 = 0#8 := by decide +kernel

/-! ## Witnesses: states and operands that meet the hypotheses of the statements

One theorem per statement with hypotheses, named after it. A conjunct for each clause, at a boundary of its range. -/

theorem witness_EncodedInstructionDecodesToItself :
    (Instr.skipIfRegEqual 0xF#4 0#4 0xF#4).wellFormed false = true ∧
    (Instr.skipIfRegNotEqual 0xF#4 0#4 0#4).wellFormed true = true ∧ (Instr.loadRegisters 0xF#4).wellFormed true = true := by
  decide

theorem witness_DecodedWordEncodesBack :
    decodeWord false 0x9FFF#16 = .ok (.skipIfRegNotEqual 0xF#4 0xF#4 0xF#4) ∧
    decodeWord true 0x9FF0#16 = .ok (.skipIfRegNotEqual 0xF#4 0xF#4 0#4) := by decide

theorem witness_DecoderAgreesWithOpcodeTable :
    (∃ r ∈ opcodeRows true, r.matches 0x5120#16 = true) ∧ (∀ r ∈ opcodeRows true, r.matches 0x5121#16 = false) ∧
    (∀ r ∈ opcodeRows false, r.matches 0x00E1#16 = false) := by decide +kernel

theorem witness_FetchReadsTwoBytesBigEndian :
    0x1000 ≤ (State.reset.setPC 0x1000#16).pc.toNat ∧
    ((State.reset.setPC 0xFFF#16).pc.toNat < 0x1000 ∧ 0x1000 ≤ (State.reset.setPC 0xFFF#16).pc.toNat + 1) ∧
    (State.reset.setPC 0xFFE#16).pc.toNat + 1 < 0x1000 := by decide +kernel

theorem witness_StepRunsDecodedInstruction :
    (progAt 0xFFE#16 0x1FFF).status = .running ∧ (progAt 0xFFE#16 0x1FFF).pc.toNat + 1 < memSize ∧
    decodeWord (progAt 0xFFE#16 0x1FFF).cfg.strict59
      (wordOfBytes ((progAt 0xFFE#16 0x1FFF).peek 0xFFE) ((progAt 0xFFE#16 0x1FFF).peek 0xFFF)) = .ok (.jump 0xFFF#12) ∧
    (nextState (exec (.jump 0xFFF#12) ((progAt 0xFFE#16 0x1FFF).sampleInputs.fetched 0x1FFF#16))).isSome = true ∧
    (faultOf (exec .ret ((prog 0x00EE).sampleInputs.fetched 0x00EE#16))).isSome = true := by decide +kernel

/-- Both ways of taking inputs: a pair the host has fixed, with keys down, and none. -/
theorem witness_StepRunsDecodedInstruction_inputs :
    (given (prog 0xC3FF) 0x8001#16 0xB6#8).inputs = (⟨0x8001#16, 0xB6#8⟩ : StepInput) :: [] ∧
    (given (prog 0xC3FF) 0x8001#16 0xB6#8).instrAtPC = some (.random 3#4 0xFF#8) ∧ (prog 0xC3FF).inputs = [] := by
  decide +kernel

theorem witness_UnknownWordIsReportedNoOp :
    (progAt 0xFFE#16 0x00E1).status = .running ∧ (progAt 0xFFE#16 0x00E1).wordAtPC = some 0x00E1#16 ∧
    decodeWord (progAt 0xFFE#16 0x00E1).cfg.strict59 0x00E1#16 = .error .unknownClass0 := by decide +kernel

theorem witness_FetchOutsideMemoryIsFatal :
    (State.reset.setPC 0xFFF#16).status = .running ∧ (State.reset.setPC 0xFFF#16).pc.toNat = 0xFFF ∧
    0x1000 ≤ (State.reset.setPC 0x1000#16).pc.toNat ∧ (State.reset.setPC 0xFFE#16).pc.toNat = 0xFFE := by decide +kernel

theorem witness_EndedRunNeverChanges :
    (State.reset.setStatus .stopped).status ≠ .running ∧
    (State.reset.setStatus (.fatal (.stackUnderflow 0x200#16))).status ≠ .running := by decide +kernel

theorem witness_FatalStepAndStopSetOnlyStatus :
    (∃ f, step (prog 0x00EE) = .fault f) ∧ State.reset.status = .running :=
  ⟨fault_of_faultOf (by decide +kernel), rfl⟩

/-- A running state at an instruction other than FX15 and FX18, and one at an unknown word. -/
theorem witness_TimersCountDownOncePerStep :
    (prog 0x00E0).status = .running ∧ (∃ t, step (prog 0x00E0) = .next t) ∧
    (∀ x, (prog 0x00E0).instrAtPC ≠ some (.writeRegisterIntoDelay x)) ∧
    (∀ x, (prog 0x00E0).instrAtPC ≠ some (.writeRegisterIntoSound x)) ∧
    (∀ x, State.reset.instrAtPC ≠ some (.writeRegisterIntoDelay x)) := by
  refine ⟨rfl, next_of_nextState (by decide +kernel), ?_, ?_, ?_⟩ <;> decide +kernel

theorem prog_1ABC_instr : (prog 0x1ABC).instrAtPC = some (.jump 0xABC#12) := by decide +kernel

theorem prog_1ABC_steps : ∃ t, step (prog 0x1ABC) = .next t := next_of_nextState (by decide +kernel)

theorem witness_OnlyClearAndDrawChangeDisplay :
    (∃ t, step (prog 0x1ABC) = .next t) ∧ ∀ i, (prog 0x1ABC).instrAtPC = some i → ¬ writesDisplay i := by
  refine ⟨prog_1ABC_steps, fun i h => ?_⟩
  rw [prog_1ABC_instr] at h
  cases h
  simp [writesDisplay]

theorem witness_OnlyBcdAndStoreChangeMemory :
    (∃ t, step (prog 0x1ABC) = .next t) ∧ ∀ i, (prog 0x1ABC).instrAtPC = some i → ¬ writesMemory i := by
  refine ⟨prog_1ABC_steps, fun i h => ?_⟩
  rw [prog_1ABC_instr] at h
  cases h
  simp [writesMemory]

theorem witness_OnlyCallAndReturnChangeStack :
    (∃ t, step (prog 0x1ABC) = .next t) ∧ ∀ i, (prog 0x1ABC).instrAtPC = some i → ¬ reachesStack i := by
  refine ⟨prog_1ABC_steps, fun i h => ?_⟩
  rw [prog_1ABC_instr] at h
  cases h
  simp [reachesStack]

/-- FX55 with LOADSTORE_INCREMENTS_I off does not write I. -/
theorem witness_OnlyIndexWritersChangeIndex :
    (∃ t, step (prog 0xF055) = .next t) ∧
    ∀ i, (prog 0xF055).instrAtPC = some i → ¬ writesIndex (prog 0xF055).cfg i := by
  have hi : (prog 0xF055).instrAtPC = some (.storeRegisters 0#4) := by decide +kernel
  have hc : (prog 0xF055).cfg.loadStoreIncrementsI = false := by decide +kernel
  refine ⟨next_of_nextState (by decide +kernel), fun i h => ?_⟩
  rw [hi] at h
  cases h
  simp [writesIndex, hc]

theorem witness_StepWritesOnlyListedRegisters :
    (∃ t, step (prog 0x1ABC) = .next t) ∧ ∀ i, (prog 0x1ABC).instrAtPC = some i → registersWritten i vf = false := by
  refine ⟨prog_1ABC_steps, fun i h => ?_⟩
  rw [prog_1ABC_instr] at h
  cases h
  rfl

theorem witness_ConfigurationAndStatusSurviveStep : ∃ t, step (prog 0x1ABC) = .next t := prog_1ABC_steps

/-- A state and an instruction for each of the conditions an instruction raises. -/
theorem witness_FatalConditionsComeOnlyFromTheirRaisers :
    faultOf (exec (.bcd 0#4) { State.reset with i := 0x1000#16 }) = some (.addressOutOfRange 0x1000 0x1FE#16) ∧
    faultOf (exec .ret State.reset) = some (.stackUnderflow 0x1FE#16) ∧
    faultOf (exec (.callSubroutine 0#12) (configured (fun c => { c with stackLimit := some 0 }) State.reset)) =
      some (.stackOverflow 0x1FE#16) ∧
    faultOf (exec (.skipIfKeyPressed 0#4) (State.reset.setReg 0#4 0x10#8)) =
      some (.keyIndexOutOfRange 0x10#8 0x1FE#16) := by decide +kernel

theorem witness_StepKeepsMemoryCanonical :
    (prog 0xF055).memoryCanonical ∧ ∃ t, step (prog 0xF055) = .next t :=
  ⟨by decide +kernel, next_of_nextState (by decide +kernel)⟩

/-- At the largest PC and with STACK_LIMIT reached. -/
theorem witness_StepKeepsControlInRange :
    (State.reset.setPC 0x10FE#16).controlInRange ∧
    (configured (fun c => { c with stackLimit := some 1 }) { progAt 0xFFE#16 0x00EE with stack := [0x1000#16] }).controlInRange ∧
    ∃ t, step (configured (fun c => { c with stackLimit := some 1 })
      { progAt 0xFFE#16 0x00EE with stack := [0x1000#16] }) = .next t :=
  ⟨by decide +kernel, by decide +kernel, next_of_nextState (by decide +kernel)⟩

theorem witness_ReturnPopsOrUnderflows :
    ({ State.reset with stack := [0x204#16] } : State).stack = [] ++ [0x204#16] ∧ State.reset.stack = [] := by
  decide +kernel

theorem witness_CallPushesOrOverflows :
    State.reset.cfg.stackLimit ≠ some State.reset.stack.length ∧
    (configured (fun c => { c with stackLimit := some 0 }) State.reset).cfg.stackLimit = some State.reset.stack.length := by
  decide +kernel

theorem witness_ReturnResumesAfterCall :
    ∃ t u : State, exec (.callSubroutine 0x300#12) State.reset = .next t ∧ u.stack = t.stack :=
  (next_of_nextState (by decide +kernel)).elim fun t h => ⟨t, t, h, rfl⟩

theorem witness_ImmediateSkips : State.reset.reg vf = 0#8 ∧ State.reset.reg vf ≠ 0xFF#8 := by decide +kernel

theorem witness_RegisterSkips :
    State.reset.reg 0#4 = State.reset.reg vf ∧ (State.reset.setReg 0#4 1#8).reg 0#4 ≠ (State.reset.setReg 0#4 1#8).reg vf := by
  decide +kernel

theorem witness_JumpWithOffsetSetsPC :
    State.reset.cfg.jumpOffsetUsesVX = false ∧
    (configured (fun c => { c with jumpOffsetUsesVX := true }) State.reset).cfg.jumpOffsetUsesVX = true ∧
    (0xF#4 : RegIx).toNat = (0xFFF#12 : Imm12).toNat / 256 := by decide +kernel

theorem witness_AddSetsCarry : (0#4 : RegIx) ≠ vf := by decide

theorem witness_SubtractsSetNoBorrow : (0xE#4 : RegIx) ≠ vf := by decide

theorem witness_ShiftsSetBitShiftedOut :
    (1#8 : Byte) = (if (configured (fun c => { c with shiftCopiesVY := true }) (State.reset.setReg 1#4 1#8)).cfg.shiftCopiesVY
      then (State.reset.setReg 1#4 1#8).reg 1#4 else (State.reset.setReg 1#4 1#8).reg 0#4) ∧
    (0#8 : Byte) = (if State.reset.cfg.shiftCopiesVY then State.reset.reg 1#4 else State.reset.reg 0#4) ∧
    (0#4 : RegIx) ≠ vf := by decide +kernel

theorem witness_BcdStoresDigits : ({ State.reset with i := 0xFFD#16 } : State).ea 2 < memSize := by decide +kernel

theorem witness_BcdFaultsAtFirstBadAddress :
    (0x1000 ≤ ({ State.reset with i := 0xFFE#16 } : State).ea 2 ∧
      ∀ j, j < 2 → ({ State.reset with i := 0xFFE#16 } : State).ea j < 0x1000) ∧
    0x1000 ≤ ({ State.reset with i := 0x1000#16 } : State).ea 0 := by decide +kernel

theorem witness_StoreRegistersWritesBlock :
    ({ State.reset with i := 0xFF0#16 } : State).ea (0xF#4 : RegIx).toNat < memSize := by decide +kernel

theorem witness_LoadRegistersReadsBlock :
    ({ State.reset with i := 0xFFF#16 } : State).ea (0#4 : RegIx).toNat < memSize := by decide +kernel

theorem witness_BlockTransfersFaultAtFirstBadAddress :
    (1 ≤ (1#4 : RegIx).toNat ∧ 0x1000 ≤ ({ State.reset with i := 0xFFF#16 } : State).ea 1 ∧
      ∀ j, j < 1 → ({ State.reset with i := 0xFFF#16 } : State).ea j < 0x1000) ∧
    0x1000 ≤ ({ State.reset with i := 0xFFFF#16 } : State).ea 0 := by decide +kernel

theorem witness_StoreThenLoadRestoresRegisters :
    (∃ u, exec (.storeRegisters 0xF#4) { State.reset with i := 0xFF0#16 } = .next u) ∧
    ({ State.reset with i := 0xFF0#16 } : State).cfg.loadStoreIncrementsI = false :=
  ⟨next_of_nextState (by decide +kernel), rfl⟩

/-- Two rows above the bottom edge (y0 = 30), at the last two bytes of memory; and a pixel that collides. -/
theorem witness_DrawXorsSpriteAndSetsCollision :
    (∀ r, r < (5#4 : Nibble).toNat →
      ({ State.reset.setReg 1#4 30#8 with i := 0xFFE#16 } : State).drawRow 1#4 + r < 32 →
      ({ State.reset.setReg 1#4 30#8 with i := 0xFFE#16 } : State).ea r < memSize) ∧
    (({ State.reset with i := 0x050#16, disp := (Vector.replicate 32 0#64).set 0 1#64 } : State).pixel 0 0 = true ∧
      ({ State.reset with i := 0x050#16 } : State).spriteBit 0 0 5 0 0 = true) := by decide +kernel

/-- V-DSP-7: y0 = 29, the third row is outside memory. -/
theorem witness_DrawFaultsAtFirstBadRow :
    2 < (5#4 : Nibble).toNat ∧ ({ State.reset.setReg 1#4 29#8 with i := 0xFFE#16 } : State).drawRow 1#4 + 2 < 32 ∧
    0x1000 ≤ ({ State.reset.setReg 1#4 29#8 with i := 0xFFE#16 } : State).ea 2 ∧
    ∀ j, j < 2 → ({ State.reset.setReg 1#4 29#8 with i := 0xFFE#16 } : State).ea j < 0x1000 := by decide +kernel

theorem reset_pixel_dark (px py : Nat) : ({ State.reset with i := 0x050#16 } : State).pixel px py = false := by
  simp [State.pixel, Display.pixel, State.reset]

/-- No lit pixel under the sprite: VF becomes 0. -/
theorem witness_DrawXorsSpriteAndSetsCollision_no_collision :
    ∀ px py, px < 64 → py < 32 → ({ State.reset with i := 0x050#16 } : State).pixel px py = true →
      ({ State.reset with i := 0x050#16 } : State).spriteBit 0 0 5 px py = false := by
  intro px py _ _ h
  rw [reset_pixel_dark] at h
  cases h

/-- V-DSP-2, V-DSP-3: a dark display on which the sprite lights pixels. -/
theorem witness_DrawTwiceRestoresDisplay :
    (0#4 : RegIx) ≠ vf ∧ (1#4 : RegIx) ≠ vf ∧
    (∃ u, exec (.draw 0#4 1#4 5#4) { State.reset with i := 0x050#16 } = .next u) ∧
    (∀ px py, ({ State.reset with i := 0x050#16 } : State).pixel px py = false) ∧
    (nextState (exec (.draw 0#4 1#4 5#4) { State.reset with i := 0x050#16 })).map State.disp ≠ some State.reset.disp :=
  ⟨by decide, by decide, next_of_nextState (by decide +kernel), reset_pixel_dark, by decide +kernel⟩

theorem witness_TimerTransfersWithCountdown :
    (prog 0xFF07).status = .running ∧ (prog 0xFF07).instrAtPC = some (.readDelayIntoRegister 0xF#4) ∧
    (prog 0xFF15).instrAtPC = some (.writeRegisterIntoDelay 0xF#4) ∧
    (prog 0xFF18).instrAtPC = some (.writeRegisterIntoSound 0xF#4) := by decide +kernel

/-- VX = 0xF, VX = 0x10 under mask_low_nibble, key 0xF down, and no key down. -/
theorem witness_KeySkipsReadSample :
    ((State.reset.setReg 0#4 0xF#8).reg 0#4).toNat ≤ 0xF ∧
    (configured (fun c => { c with keyIndexPolicy := .maskLowNibble }) (State.reset.setReg 0#4 0x10#8)).cfg.keyIndexPolicy =
      .maskLowNibble ∧
    ({ State.reset.setReg 0#4 0xF#8 with keys := 0x8000#16 } : State).keys.getLsbD
      (((State.reset.setReg 0#4 0xF#8).reg 0#4).toNat % 16) = true ∧
    State.reset.keys.getLsbD ((State.reset.reg 0#4).toNat % 16) = false := by decide +kernel

theorem witness_KeyIndexOutOfRangeIsFatal :
    0xF < ((State.reset.setReg 0#4 0x10#8).reg 0#4).toNat ∧
    (State.reset.setReg 0#4 0x10#8).cfg.keyIndexPolicy = .fatal := by decide +kernel

theorem witness_KeyWaitRewindsOrLatches :
    State.reset.keys = 0#16 ∧ ({ State.reset with keys := 0x8001#16 } : State).keys ≠ 0#16 ∧
    (given (prog 0xFF0A) 0#16 0#8).status = .running ∧
    (given (prog 0xFF0A) 0#16 0#8).instrAtPC = some (.blockingKeyWait 0xF#4) ∧
    (given (prog 0xFF0A) 0#16 0#8).inputs = (⟨0#16, 0#8⟩ : StepInput) :: [] ∧
    (given (prog 0xFF0A) 0x8001#16 0#8).instrAtPC = some (.blockingKeyWait 0xF#4) ∧
    (given (prog 0xFF0A) 0x8001#16 0#8).inputs = (⟨0x8001#16, 0#8⟩ : StepInput) :: [] ∧ (0x8001#16 : Word) ≠ 0#16 := by
  decide +kernel

theorem witness_RegisterStateAfterReset : (List.replicate 3584 (0#8 : Byte)).length ≤ 3584 :=
  Nat.le_of_eq (List.length_replicate ..)

theorem witness_OversizedRomIsFatalAtReset : 3584 < (List.replicate 3585 (0#8 : Byte)).length := by
  rw [List.length_replicate]
  decide

/-- The longest ROM, and an address of each of the three parts at its edges. -/
theorem witness_MemoryAfterReset :
    (List.replicate 3584 (0x5A#8 : Byte)).length ≤ 3584 ∧ (0x050 ≤ 0x09F ∧ 0x09F < 0x0A0) ∧
    (0x200 ≤ 0xFFF ∧ 0xFFF < 0x200 + (List.replicate 3584 (0x5A#8 : Byte)).length) ∧
    ¬(0x050 ≤ 0x0A0 ∧ 0x0A0 < 0x0A0) := by
  rw [List.length_replicate]
  decide

end Sys2Proof.Tests
end

section
/-! SUPPORT. What an instruction that can fault, or that has two outcomes, does when it ends in a next state: one
inversion lemma each. Every other arm of `exec` answers one next state by definition. -/

namespace Sys2Proof.Machine

/-! ## The instructions that can raise a fatal condition -/

theorem exec_ret_next {s t : State} (h : exec .ret s = .next t) :
    ∃ a, s.stack.getLast? = some a ∧ t = (s.setStack s.stack.dropLast).setPC a := by
  rw [exec, execReturn] at h
  split at h
  · cases h
  · next a ha => cases h; exact ⟨a, ha, rfl⟩

theorem exec_callSubroutine_next {nnn : Imm12} {s t : State} (h : exec (.callSubroutine nnn) s = .next t) :
    s.cfg.stackLimit ≠ some s.stack.length ∧ t = (s.push s.pc).setPC (zextImm12 nnn) := by
  rw [exec, execCallSubroutine] at h
  split at h
  · cases h
  · next hlim => cases h; exact ⟨hlim, rfl⟩

theorem exec_draw_next {x y : RegIx} {n : Nibble} {s t : State} (h : exec (.draw x y n) s = .next t) :
    ∃ d hit, drawRows s.mem s.pc0 (s.ea 0) (s.drawColumn x) (s.drawRow y) n.toNat 0 s.disp false = .ok (d, hit) ∧
      t = (s.setDisp d).setVF (flagByte hit) := by
  rw [exec, execDraw] at h
  split at h
  · cases h
  · next d hit hd => cases h; exact ⟨d, hit, hd, rfl⟩

theorem exec_skipIfKeyPressed_next {x : RegIx} {s t : State} (h : exec (.skipIfKeyPressed x) s = .next t) :
    ∃ k, s.keyIndex x = .ok k ∧ t = s.skipIf (s.keyDown k) := by
  rw [exec, execSkipIfKeyPressed] at h
  split at h
  · cases h
  · next k hk => cases h; exact ⟨k, hk, rfl⟩

theorem exec_skipIfKeyNotPressed_next {x : RegIx} {s t : State} (h : exec (.skipIfKeyNotPressed x) s = .next t) :
    ∃ k, s.keyIndex x = .ok k ∧ t = s.skipIf (!s.keyDown k) := by
  rw [exec, execSkipIfKeyNotPressed] at h
  split at h
  · cases h
  · next k hk => cases h; exact ⟨k, hk, rfl⟩

theorem exec_bcd_next {x : RegIx} {s t : State} (h : exec (.bcd x) s = .next t) :
    ∃ m, storeBlock s.mem s.pc0 (s.ea 0) (bcdDigits (s.reg x)) = .ok m ∧ t = s.setMem m := by
  rw [exec, execBcd] at h
  split at h
  · cases h
  · next m hm => cases h; exact ⟨m, hm, rfl⟩

theorem exec_storeRegisters_next {x : RegIx} {s t : State} (h : exec (.storeRegisters x) s = .next t) :
    ∃ m, storeBlock s.mem s.pc0 (s.ea 0) (s.regsUpTo x) = .ok m ∧ t = (s.setMem m).advanceIndex x := by
  rw [exec, execStoreRegisters] at h
  split at h
  · cases h
  · next m hm => cases h; exact ⟨m, hm, rfl⟩

theorem exec_loadRegisters_next {x : RegIx} {s t : State} (h : exec (.loadRegisters x) s = .next t) :
    ∃ bs, loadBlock s.mem s.pc0 (s.ea 0) (x.toNat + 1) = .ok bs ∧
      t = (s.setV (writeRegs s.v 0 bs)).advanceIndex x := by
  rw [exec, execLoadRegisters] at h
  split at h
  · cases h
  · next bs hbs => cases h; exact ⟨bs, hbs, rfl⟩

/-! ## The instructions with two outcomes -/

theorem exec_blockingKeyWait_next {x : RegIx} {s t : State} (h : exec (.blockingKeyWait x) s = .next t) :
    (s.anyKey = true ∧ t = s.setReg x ((selectKey s.keys).setWidth 8)) ∨
      (s.anyKey = false ∧ t = s.setPC (s.pc - 2#16)) := by
  rw [exec, execBlockingKeyWait] at h
  cases h
  split
  · next hk => exact .inl ⟨hk, rfl⟩
  · next hk => exact .inr ⟨Bool.eq_false_iff.mpr hk, rfl⟩

theorem exec_addIndex_next {x : RegIx} {s t : State} (h : exec (.addIndex x) s = .next t) :
    (indexOverflow s.i (s.reg x) = true ∧ t = (s.setI (s.i + zextByte (s.reg x))).setVF 1#8) ∨
      (indexOverflow s.i (s.reg x) = false ∧ t = s.setI (s.i + zextByte (s.reg x))) := by
  rw [exec, execAddIndex] at h
  cases h
  split
  · next hf => exact .inl ⟨hf, rfl⟩
  · next hf => exact .inr ⟨Bool.eq_false_iff.mpr hf, rfl⟩

end Sys2Proof.Machine
end

section
/-! SUPPORT. Which part of the state an instruction leaves as it is: cfg and status (R35, R36), the call stack
(R29), I (R26), the V registers (R24). -/

namespace Sys2Proof.Machine

theorem exec_keeps_cfg {i : Instr} {s t : State} (h : exec i s = .next t) : t.cfg = s.cfg := by
  obtain ⟨hcfg, -⟩ := exec_keeps_environment h
  exact hcfg

theorem exec_keeps_status {i : Instr} {s t : State} (h : exec i s = .next t) : t.status = s.status := by
  obtain ⟨-, hstatus, -⟩ := exec_keeps_environment h
  exact hstatus

/-- The call stacks an instruction can leave (R29, R100, R102). -/
inductive StackAfter (s : State) : Instr → List Word → Prop where
  | kept (i : Instr) : StackAfter s i s.stack
  | popped : StackAfter s .ret s.stack.dropLast
  | pushed (nnn : Imm12) (h : s.cfg.stackLimit ≠ some s.stack.length) :
      StackAfter s (.callSubroutine nnn) (s.stack ++ [s.pc])

theorem exec_stackAfter {i : Instr} {s t : State} (h : exec i s = .next t) : StackAfter s i t.stack := by
  have hkept : t.stack = s.stack → StackAfter s i t.stack := fun e => e ▸ .kept i
  cases i
  case ret =>
    obtain ⟨a, -, rfl⟩ := exec_ret_next h
    exact .popped
  case callSubroutine nnn =>
    obtain ⟨hlim, rfl⟩ := exec_callSubroutine_next h
    exact .pushed nnn hlim
  case draw x y n =>
    obtain ⟨d, hit, -, rfl⟩ := exec_draw_next h
    exact hkept rfl
  case skipIfKeyPressed x =>
    obtain ⟨k, -, rfl⟩ := exec_skipIfKeyPressed_next h
    exact hkept (by simp)
  case skipIfKeyNotPressed x =>
    obtain ⟨k, -, rfl⟩ := exec_skipIfKeyNotPressed_next h
    exact hkept (by simp)
  case blockingKeyWait x =>
    obtain ⟨-, rfl⟩ | ⟨-, rfl⟩ := exec_blockingKeyWait_next h <;> exact hkept rfl
  case addIndex x =>
    obtain ⟨-, rfl⟩ | ⟨-, rfl⟩ := exec_addIndex_next h <;> exact hkept rfl
  case bcd x =>
    obtain ⟨m, -, rfl⟩ := exec_bcd_next h
    exact hkept rfl
  case storeRegisters x =>
    obtain ⟨m, -, rfl⟩ := exec_storeRegisters_next h
    exact hkept (by simp)
  case loadRegisters x =>
    obtain ⟨bs, -, rfl⟩ := exec_loadRegisters_next h
    exact hkept (by simp)
  all_goals
    cases h
    exact hkept (by simp)

theorem StackAfter.eq_of_not_reachesStack {s : State} {i : Instr} {l : List Word} (h : StackAfter s i l)
    (hi : ¬ reachesStack i) : l = s.stack := by
  cases h with
  | kept => rfl
  | popped => exact absurd (.inl rfl) hi
  | pushed nnn => exact absurd (.inr ⟨nnn, rfl⟩) hi

theorem State.advanceIndex_i_of_off {s : State} (x : RegIx) (h : s.cfg.loadStoreIncrementsI = false) :
    (s.advanceIndex x).i = s.i := by
  simp [State.advanceIndex, h]

theorem exec_keeps_index {i : Instr} {s t : State} (h : exec i s = .next t) (hi : ¬ writesIndex s.cfg i) :
    t.i = s.i := by
  obtain ⟨hset, hcomputed, hquirk⟩ : (¬ ∃ nnn, i = .setIndex nnn) ∧
      (¬ ∃ x, i = .addIndex x ∨ i = .fontCharacterAddress x) ∧
      ¬ (s.cfg.loadStoreIncrementsI = true ∧ ∃ x, i = .storeRegisters x ∨ i = .loadRegisters x) := by
    simpa only [writesIndex, not_or] using hi
  cases i
  case ret =>
    obtain ⟨a, -, rfl⟩ := exec_ret_next h
    rfl
  case callSubroutine nnn =>
    obtain ⟨-, rfl⟩ := exec_callSubroutine_next h
    rfl
  case setIndex nnn => exact absurd ⟨nnn, rfl⟩ hset
  case addIndex x => exact absurd ⟨x, .inl rfl⟩ hcomputed
  case fontCharacterAddress x => exact absurd ⟨x, .inr rfl⟩ hcomputed
  case draw x y n =>
    obtain ⟨d, hit, -, rfl⟩ := exec_draw_next h
    rfl
  case skipIfKeyPressed x =>
    obtain ⟨k, -, rfl⟩ := exec_skipIfKeyPressed_next h
    simp
  case skipIfKeyNotPressed x =>
    obtain ⟨k, -, rfl⟩ := exec_skipIfKeyNotPressed_next h
    simp
  case blockingKeyWait x =>
    obtain ⟨-, rfl⟩ | ⟨-, rfl⟩ := exec_blockingKeyWait_next h <;> rfl
  case bcd x =>
    obtain ⟨m, -, rfl⟩ := exec_bcd_next h
    rfl
  case storeRegisters x =>
    obtain ⟨m, -, rfl⟩ := exec_storeRegisters_next h
    exact State.advanceIndex_i_of_off x (Bool.eq_false_iff.mpr fun hq => hquirk ⟨hq, x, .inl rfl⟩)
  case loadRegisters x =>
    obtain ⟨bs, -, rfl⟩ := exec_loadRegisters_next h
    exact State.advanceIndex_i_of_off x (Bool.eq_false_iff.mpr fun hq => hquirk ⟨hq, x, .inr rfl⟩)
  all_goals
    cases h
    simp

/-- A block load of x + 1 bytes leaves the registers above VX (R155). -/
theorem reg_setV_writeRegs_of_lt (s : State) {bs : List Byte} {x r : RegIx} (hbs : bs.length = x.toNat + 1)
    (hr : x.toNat < r.toNat) : (s.setV (writeRegs s.v 0 bs)).reg r = s.reg r := by
  rw [State.reg_setV, getElem_writeRegs, dif_neg (by omega)]
  rfl

theorem exec_keeps_unlisted_register {i : Instr} {s t : State} {r : RegIx} (h : exec i s = .next t) :
    registersWritten i r = false → t.reg r = s.reg r := by
  cases i
  case ret =>
    obtain ⟨a, -, rfl⟩ := exec_ret_next h
    simp
  case callSubroutine nnn =>
    obtain ⟨-, rfl⟩ := exec_callSubroutine_next h
    simp
  case draw x y n =>
    obtain ⟨d, hit, -, rfl⟩ := exec_draw_next h
    simp +contextual [registersWritten]
  case skipIfKeyPressed x =>
    obtain ⟨k, -, rfl⟩ := exec_skipIfKeyPressed_next h
    simp
  case skipIfKeyNotPressed x =>
    obtain ⟨k, -, rfl⟩ := exec_skipIfKeyNotPressed_next h
    simp
  case blockingKeyWait x =>
    obtain ⟨-, rfl⟩ | ⟨-, rfl⟩ := exec_blockingKeyWait_next h <;> simp +contextual [registersWritten]
  case addIndex x =>
    obtain ⟨-, rfl⟩ | ⟨-, rfl⟩ := exec_addIndex_next h <;> simp +contextual [registersWritten]
  case bcd x =>
    obtain ⟨m, -, rfl⟩ := exec_bcd_next h
    simp
  case storeRegisters x =>
    obtain ⟨m, -, rfl⟩ := exec_storeRegisters_next h
    simp
  case loadRegisters x =>
    obtain ⟨bs, hbs, rfl⟩ := exec_loadRegisters_next h
    intro hr
    rw [State.reg_advanceIndex]
    exact reg_setV_writeRegs_of_lt s (loadBlock_ok_length _ _ hbs) (Nat.lt_of_not_le (of_decide_eq_false hr))
  all_goals
    cases h
    simp +contextual [registersWritten]

end Sys2Proof.Machine
end

section
/-! SUPPORT. From an instruction to its step: what sampling, fetch, report and countdown leave alone is changed by a
step only if its instruction changes it. -/

namespace Sys2Proof.Machine

/-- A reading `f` of the state that nothing in a step but the dispatched instruction touches (R74, R201). -/
structure ChangedOnlyByExec {α : Type} (f : State → α) : Prop where
  sampleInputs : ∀ s, f s.sampleInputs = f s
  fetched : ∀ s w, f (s.fetched w) = f s
  reportUnknown : ∀ s w p, f (s.reportUnknown w p) = f s
  timerTick : ∀ s, f s.timerTick = f s

theorem changedOnlyByExec_stack : ChangedOnlyByExec State.stack := ⟨by simp, by simp, by simp, by simp⟩

theorem changedOnlyByExec_i : ChangedOnlyByExec State.i := ⟨by simp, by simp, by simp, by simp⟩

theorem changedOnlyByExec_cfg : ChangedOnlyByExec State.cfg := ⟨by simp, by simp, by simp, by simp⟩

theorem changedOnlyByExec_status : ChangedOnlyByExec State.status := ⟨by simp, by simp, by simp, by simp⟩

theorem changedOnlyByExec_reg (r : RegIx) : ChangedOnlyByExec (State.reg · r) :=
  ⟨by simp, by simp, by simp, by simp⟩

/-- A step keeps such a reading when the instruction at PC keeps it; an unknown word and an ended run always do. -/
theorem ChangedOnlyByExec.step_keeps {α : Type} {f : State → α} (hf : ChangedOnlyByExec f) {s t : State}
    (h : step s = .next t)
    (hexec : ∀ i u v, s.instrAtPC = some i → u.cfg = s.cfg → exec i u = .next v → f v = f u) : f t = f s := by
  obtain ⟨-, rfl⟩ | ⟨-, w, -, ⟨-, -, rfl⟩ | ⟨i, u, hi, -, hu, rfl⟩⟩ := step_cases h
  · rfl
  · rw [hf.timerTick, hf.reportUnknown, hf.fetched, hf.sampleInputs]
  · rw [hf.timerTick, hexec i _ u hi (by simp) hu, hf.fetched, hf.sampleInputs]

/-- Settles O15: the stack is changed by no part of a step but the instruction, and by no instruction but the two. -/
theorem onlyCallAndReturnChangeStack : Obligations.OnlyCallAndReturnChangeStack := by
  intro s t h hi
  exact changedOnlyByExec_stack.step_keeps h fun i _ _ hat _ hex =>
    (exec_stackAfter hex).eq_of_not_reachesStack (hi i hat)

/-- Settles O16: I is changed by no part of a step but the instruction, and by no instruction but its writers. -/
theorem onlyIndexWritersChangeIndex : Obligations.OnlyIndexWritersChangeIndex := by
  intro s t h hi
  exact changedOnlyByExec_i.step_keeps h fun i _ _ hat hcfg hex => exec_keeps_index hex (hcfg ▸ hi i hat)

/-- Settles O17: a V register is changed by no part of a step but an instruction that R24 gives it to. -/
theorem stepWritesOnlyListedRegisters : Obligations.StepWritesOnlyListedRegisters := by
  intro s t h r hr
  exact (changedOnlyByExec_reg r).step_keeps h fun i _ _ hat _ hex => exec_keeps_unlisted_register hex (hr i hat)

/-- Settles O18, since no instruction writes cfg or status. -/
theorem configurationAndStatusSurviveStep : Obligations.ConfigurationAndStatusSurviveStep := by
  intro s t h
  constructor
  · exact changedOnlyByExec_cfg.step_keeps h fun _ _ _ _ _ hex => exec_keeps_cfg hex
  · exact changedOnlyByExec_status.step_keeps h fun _ _ _ _ _ hex => exec_keeps_status hex

end Sys2Proof.Machine
end

section
/-! SUPPORT. PC and the call stack stay in the ranges of R20 and R28. -/

namespace Sys2Proof.Machine

/-! ## The values an instruction can leave in PC -/

/-- The values R28 lists for PC after an instruction; PC has already advanced past it. -/
inductive PCAfter (s : State) : Word → Prop where
  | advanced : PCAfter s s.pc
  | skipped : PCAfter s (s.pc + 2#16)
  | rewound : PCAfter s (s.pc - 2#16)
  | jumped (nnn : Imm12) : PCAfter s (zextImm12 nnn)
  | jumpedWithOffset (nnn : Imm12) (b : Byte) : PCAfter s (zextImm12 nnn + zextByte b)
  | returned {a : Word} (h : a ∈ s.stack) : PCAfter s a

theorem pcAfter_skipIf (s : State) (c : Bool) : PCAfter s (s.skipIf c).pc := by
  cases c with
  | true => exact .skipped
  | false => exact .advanced

theorem exec_pcAfter {i : Instr} {s t : State} (h : exec i s = .next t) : PCAfter s t.pc := by
  cases i
  case ret =>
    obtain ⟨a, ha, rfl⟩ := exec_ret_next h
    exact .returned (List.mem_of_getLast? ha)
  case callSubroutine nnn =>
    obtain ⟨-, rfl⟩ := exec_callSubroutine_next h
    exact .jumped nnn
  case jump nnn =>
    cases h
    exact .jumped nnn
  case jumpWithOffset nnn =>
    cases h
    exact .jumpedWithOffset nnn (s.jumpBase nnn)
  case skipIfEqual | skipIfNotEqual | skipIfRegEqual | skipIfRegNotEqual =>
    cases h
    exact pcAfter_skipIf s _
  case skipIfKeyPressed x =>
    obtain ⟨k, -, rfl⟩ := exec_skipIfKeyPressed_next h
    exact pcAfter_skipIf s _
  case skipIfKeyNotPressed x =>
    obtain ⟨k, -, rfl⟩ := exec_skipIfKeyNotPressed_next h
    exact pcAfter_skipIf s _
  case blockingKeyWait x =>
    obtain ⟨-, rfl⟩ | ⟨-, rfl⟩ := exec_blockingKeyWait_next h
    · exact .advanced
    · exact .rewound
  case draw x y n =>
    obtain ⟨d, hit, -, rfl⟩ := exec_draw_next h
    exact .advanced
  case addIndex x =>
    obtain ⟨-, rfl⟩ | ⟨-, rfl⟩ := exec_addIndex_next h <;> exact .advanced
  case bcd x =>
    obtain ⟨m, -, rfl⟩ := exec_bcd_next h
    exact .advanced
  case storeRegisters x =>
    obtain ⟨m, -, rfl⟩ := exec_storeRegisters_next h
    rw [State.advanceIndex_pc]
    exact .advanced
  case loadRegisters x =>
    obtain ⟨bs, -, rfl⟩ := exec_loadRegisters_next h
    rw [State.advanceIndex_pc]
    exact .advanced
  all_goals
    cases h
    exact .advanced

/-! ## The ranges as bounds -/

theorem State.controlInRange_iff (s : State) :
    s.controlInRange ↔ s.pc.toNat ≤ 0x10FE ∧ (∀ a ∈ s.stack, a.toNat ≤ 0x1000) ∧
      ∀ n, s.cfg.stackLimit = some n → s.stack.length ≤ n := by
  simp [State.controlInRange, State.pcInRange, State.returnAddressesInRange, State.stackWithinLimit,
    Option.all_eq_true]

theorem toNat_zextImm12_lt (nnn : Imm12) : (zextImm12 nnn).toNat < 0x1000 := by
  rw [zextImm12, BitVec.toNat_setWidth]
  omega

theorem toNat_zextByte_lt (b : Byte) : (zextByte b).toNat < 0x100 := by
  rw [zextByte, BitVec.toNat_setWidth]
  omega

/-- R28's bound: 0x1002 after a skip, 0x0FFF from a jump, 0x10FE from BNNN, 0x1000 from a return. -/
theorem PCAfter.toNat_le {s : State} {w : Word} (h : PCAfter s w) (hlo : 2 ≤ s.pc.toNat) (hhi : s.pc.toNat ≤ 0x1000)
    (hret : ∀ a ∈ s.stack, a.toNat ≤ 0x1000) : w.toNat ≤ 0x10FE := by
  cases h with
  | advanced => omega
  | skipped => bv_omega
  | rewound => bv_omega
  | jumped nnn =>
    have := toNat_zextImm12_lt nnn
    omega
  | jumpedWithOffset nnn b =>
    have := toNat_zextImm12_lt nnn
    have := toNat_zextByte_lt b
    rw [BitVec.toNat_add]
    omega
  | returned ha => exact (hret _ ha).trans (by decide)

theorem StackAfter.le_of_mem {s : State} {i : Instr} {l : List Word} (h : StackAfter s i l)
    (hpc : s.pc.toNat ≤ 0x1000) (hret : ∀ a ∈ s.stack, a.toNat ≤ 0x1000) : ∀ a ∈ l, a.toNat ≤ 0x1000 := by
  cases h with
  | kept => exact hret
  | popped => exact fun a ha => hret a (List.mem_of_mem_dropLast ha)
  | pushed => simpa [or_imp, forall_and] using ⟨hret, hpc⟩

theorem StackAfter.length_le {s : State} {i : Instr} {l : List Word} (h : StackAfter s i l) {n : Nat}
    (hlim : s.cfg.stackLimit = some n) (hle : s.stack.length ≤ n) : l.length ≤ n := by
  cases h with
  | kept => exact hle
  | popped =>
    rw [List.length_dropLast]
    omega
  | pushed nnn hne =>
    have : n ≠ s.stack.length := fun e => hne (e ▸ hlim)
    rw [List.length_append, List.length_singleton]
    omega

/-! ## The step -/

theorem pc_le_of_wordAtPC {s : State} {w : Word} (h : s.wordAtPC = some w) : s.pc.toNat ≤ 0xFFE := by
  unfold State.wordAtPC at h
  split at h
  · next hlt => exact Nat.le_of_lt_succ (Nat.lt_of_succ_lt_succ hlt)
  · cases h

/-- A fetch reads two bytes of memory, so PC advances without wrapping (R28). -/
theorem toNat_pc_fetched {s : State} {w : Word} (h : s.wordAtPC = some w) :
    (s.sampleInputs.fetched w).pc.toNat = s.pc.toNat + 2 := by
  have := pc_le_of_wordAtPC h
  rw [State.fetched_pc, State.sampleInputs_pc]
  bv_omega

theorem exec_keeps_controlInRange {i : Instr} {s t : State} (h : exec i s = .next t) (hlo : 2 ≤ s.pc.toNat)
    (hhi : s.pc.toNat ≤ 0x1000) (hs : s.controlInRange) : t.controlInRange := by
  rw [State.controlInRange_iff] at hs ⊢
  obtain ⟨-, hret, hlen⟩ := hs
  refine ⟨(exec_pcAfter h).toNat_le hlo hhi hret, (exec_stackAfter h).le_of_mem hhi hret, fun n hn => ?_⟩
  rw [exec_keeps_cfg h] at hn
  exact (exec_stackAfter h).length_le hn (hlen n hn)

/-- Settles O21: a fetch leaves PC in 2..0x1000 (else the step is fatal), and every instruction keeps the ranges from
there. -/
theorem stepKeepsControlInRange : Obligations.StepKeepsControlInRange := by
  intro s t hs h
  obtain ⟨-, rfl⟩ | ⟨-, w, hw, hrun⟩ := step_cases h
  · exact hs
  have hpc := toNat_pc_fetched hw
  have hle := pc_le_of_wordAtPC hw
  have hfetched : (s.sampleInputs.fetched w).controlInRange := by
    rw [State.controlInRange_iff] at hs ⊢
    exact ⟨by omega, by simpa using hs.2⟩
  obtain ⟨-, -, rfl⟩ | ⟨i, u, -, -, hu, rfl⟩ := hrun
  · exact hfetched
  · have hu : u.controlInRange := exec_keeps_controlInRange hu (by omega) (by omega) hfetched
    exact hu

end Sys2Proof.Machine
end

section
/-! SUPPORT. The end of a run, as the model's ports show it: `strobe` (log 10) and `requestStop` (log 12). -/

namespace Sys2Proof.Machine

theorem strobe_of_next {s t : State} (h : step s = .next t) : strobe s = t := by
  rw [strobe, h]

theorem strobe_of_fault {s : State} {f : Fault} (h : step s = .fault f) : strobe s = s.setStatus (.fatal f) := by
  rw [strobe, h]

theorem requestStop_of_running {s : State} (h : s.status = .running) : requestStop s = s.setStatus .stopped := by
  rw [requestStop, h]

theorem requestStop_of_not_running {s : State} (h : s.status ≠ .running) : requestStop s = s := by
  unfold requestStop
  cases hs : s.status with
  | running => exact absurd hs h
  | stopped => rfl
  | fatal f => rfl

/-- Settles O10: a step of an ended run answers the same state, so a strobe shows it too. -/
theorem endedRunNeverChanges : Obligations.EndedRunNeverChanges := by
  intro s h
  have hstep := step_of_not_running h
  exact ⟨hstep, strobe_of_next hstep, requestStop_of_not_running h⟩

/-- Settles O11, from what a strobe shows of a fault and what a stop request does to a running machine. -/
theorem fatalStepAndStopSetOnlyStatus : Obligations.FatalStepAndStopSetOnlyStatus :=
  ⟨fun _ _ h => strobe_of_fault h, fun _ h => requestStop_of_running h⟩

end Sys2Proof.Machine
end

section
/-! SUPPORT. Memory across a step: only a block store changes it (R54, R58), it keeps the canonical form (R50, R55),
and a fetch outside the 4096 bytes is fatal (R67). -/

namespace Sys2Proof.Machine

/-! ## The memory an instruction leaves -/

/-- The memories an instruction can leave: FX33 and FX55 store a block whose bytes all pass the range check. -/
inductive MemoryAfter (s : State) : Instr → Memory → Prop where
  | kept (i : Instr) : MemoryAfter s i s.mem
  | stored {i : Instr} {m : Memory} {p : Word} {a : Nat} {bs : List Byte} (hi : writesMemory i)
      (hm : storeBlock s.mem p a bs = .ok m) : MemoryAfter s i m

theorem exec_memoryAfter {i : Instr} {s t : State} (h : exec i s = .next t) : MemoryAfter s i t.mem := by
  have hkept : t.mem = s.mem → MemoryAfter s i t.mem := fun e => e ▸ .kept i
  cases i
  case bcd x =>
    obtain ⟨m, hm, rfl⟩ := exec_bcd_next h
    exact .stored ⟨x, .inl rfl⟩ hm
  case storeRegisters x =>
    obtain ⟨m, hm, rfl⟩ := exec_storeRegisters_next h
    rw [State.advanceIndex_mem]
    exact .stored ⟨x, .inr rfl⟩ hm
  case loadRegisters x =>
    obtain ⟨bs, -, rfl⟩ := exec_loadRegisters_next h
    exact hkept (by simp)
  case ret =>
    obtain ⟨a, -, rfl⟩ := exec_ret_next h
    exact hkept rfl
  case callSubroutine nnn =>
    obtain ⟨-, rfl⟩ := exec_callSubroutine_next h
    exact hkept rfl
  case draw x y n =>
    obtain ⟨d, hit, -, rfl⟩ := exec_draw_next h
    exact hkept rfl
  case skipIfKeyPressed x =>
    obtain ⟨k, -, rfl⟩ := exec_skipIfKeyPressed_next h
    exact hkept (by simp)
  case skipIfKeyNotPressed x =>
    obtain ⟨k, -, rfl⟩ := exec_skipIfKeyNotPressed_next h
    exact hkept (by simp)
  case blockingKeyWait x =>
    obtain ⟨-, rfl⟩ | ⟨-, rfl⟩ := exec_blockingKeyWait_next h <;> exact hkept rfl
  case addIndex x =>
    obtain ⟨-, rfl⟩ | ⟨-, rfl⟩ := exec_addIndex_next h <;> exact hkept rfl
  all_goals
    cases h
    exact hkept (by simp)

theorem MemoryAfter.eq_of_not_writesMemory {s : State} {i : Instr} {m : Memory} (h : MemoryAfter s i m)
    (hi : ¬ writesMemory i) : m = s.mem := by
  cases h with
  | kept => rfl
  | stored hw => exact absurd hw hi

theorem MemoryAfter.wf {s : State} {i : Instr} {m : Memory} (h : MemoryAfter s i m) (hs : Memory.wf s.mem) :
    Memory.wf m := by
  cases h with
  | kept => exact hs
  | stored _ hm => exact storeBlock_wf hs hm

/-! ## The step -/

theorem changedOnlyByExec_mem : ChangedOnlyByExec State.mem := ⟨by simp, by simp, by simp, by simp⟩

/-- A step preserves a property of such a reading when every instruction preserves it. -/
theorem ChangedOnlyByExec.step_preserves {α : Type} {f : State → α} (hf : ChangedOnlyByExec f) {P : α → Prop}
    {s t : State} (h : step s = .next t) (hs : P (f s))
    (hexec : ∀ i u v, P (f u) → exec i u = .next v → P (f v)) : P (f t) := by
  obtain ⟨-, rfl⟩ | ⟨-, w, -, ⟨-, -, rfl⟩ | ⟨i, u, -, -, hu, rfl⟩⟩ := step_cases h
  · exact hs
  · rwa [hf.timerTick, hf.reportUnknown, hf.fetched, hf.sampleInputs]
  · rw [hf.timerTick]
    refine hexec i _ u ?_ hu
    rwa [hf.fetched, hf.sampleInputs]

/-- Settles O20: memory is changed by no part of a step but the instruction, and what an instruction leaves is the old
memory or a block store into the 4096 bytes. -/
theorem stepKeepsMemoryCanonical : Obligations.StepKeepsMemoryCanonical := by
  intro s t hs h
  exact changedOnlyByExec_mem.step_preserves h hs fun _ _ _ hu hex => (exec_memoryAfter hex).wf hu

/-- Settles O14: memory is changed by no part of a step but the instruction, and by no instruction but the two. -/
theorem onlyBcdAndStoreChangeMemory : Obligations.OnlyBcdAndStoreChangeMemory := by
  intro s t h hi a
  have hmem : t.mem = s.mem := changedOnlyByExec_mem.step_keeps h fun i _ _ hat _ hex =>
    (exec_memoryAfter hex).eq_of_not_writesMemory (hi i hat)
  rw [State.peek, State.peek, hmem]

/-! ## The fetch at the top of memory -/

theorem fetch16_eq_error_of_high {s : State} (h : memSize ≤ s.pc.toNat) :
    fetch16 s = .error (.addressOutOfRange s.pc.toNat s.pc) := by
  rw [fetch16, loadByte_eq_error h]

theorem fetch16_eq_error_of_low {s : State} (hhi : s.pc.toNat < memSize) (hlo : memSize ≤ s.pc.toNat + 1) :
    fetch16 s = .error (.addressOutOfRange (s.pc.toNat + 1) s.pc) := by
  rw [fetch16, loadByte_eq hhi, loadByte_eq_error hlo]

theorem step_of_fetch16_error {s : State} {f : Fault} (hr : s.status = .running) (h : fetch16 s = .error f) :
    step s = .fault f := by
  rw [step_of_running hr, fetchAndDispatch, fetch16_sampleInputs, h]
  rfl

/-- Settles O9: at 0xFFF the low byte lies outside memory, from 0x1000 on the high byte does, at 0xFFE neither. -/
theorem fetchOutsideMemoryIsFatal : Obligations.FetchOutsideMemoryIsFatal := by
  intro s hr
  refine ⟨fun h => ?_, fun h => step_of_fetch16_error hr (fetch16_eq_error_of_high h), fun h => ?_⟩
  · have hfetch := fetch16_eq_error_of_low (s := s) (by rw [memSize_eq]; omega) (by rw [memSize_eq]; omega)
    rw [h] at hfetch
    exact step_of_fetch16_error hr hfetch
  · refine ⟨_, fetch16_eq (by rw [memSize_eq]; omega), ?_⟩
    rw [State.fetched_pc]
    bv_omega

end Sys2Proof.Machine
end

section
/-! SUPPORT. The six fields of a word as numbers (R14, R71), and the word of two bytes as a number (R56, R70). -/

namespace Sys2Proof

theorem toNat_slice (w : Word) (start len : Nat) :
    (w.extractLsb' start len).toNat = w.toNat / 2 ^ start % 2 ^ len := by
  rw [BitVec.extractLsb'_toNat, Nat.shiftRight_eq_div_pow]

theorem toNat_fieldF (w : Word) : (fieldF w).toNat = w.toNat / 4096 := by
  have hw := w.isLt
  rw [fieldF, toNat_slice]
  omega

theorem toNat_fieldX (w : Word) : (fieldX w).toNat = w.toNat / 256 % 16 := toNat_slice w 8 4

theorem toNat_fieldY (w : Word) : (fieldY w).toNat = w.toNat / 16 % 16 := toNat_slice w 4 4

theorem toNat_fieldN (w : Word) : (fieldN w).toNat = w.toNat % 16 := by
  rw [fieldN, toNat_slice]
  omega

theorem toNat_fieldNN (w : Word) : (fieldNN w).toNat = w.toNat % 256 := by
  rw [fieldNN, toNat_slice]
  omega

theorem toNat_fieldNNN (w : Word) : (fieldNNN w).toNat = w.toNat % 4096 := by
  rw [fieldNNN, toNat_slice]
  omega

/-- Settles O1, a slice of the word at a time. -/
theorem fieldsAreFixedSlicesOfWord : Obligations.FieldsAreFixedSlicesOfWord := fun w =>
  ⟨toNat_fieldF w, toNat_fieldX w, toNat_fieldY w, toNat_fieldN w, toNat_fieldNN w, toNat_fieldNNN w⟩

theorem toNat_wordOfBytes (hi lo : Byte) : (wordOfBytes hi lo).toNat = hi.toNat * 256 + lo.toNat := by
  rw [wordOfBytes, BitVec.toNat_append, ← Nat.shiftLeft_add_eq_or_of_lt lo.isLt, Nat.shiftLeft_eq]

end Sys2Proof
end

section
/-! SUPPORT. The opcode table of R90 read as a decoder: a word that matches a row decodes to the row's instruction, shown once
per mask and class and then row by row, under either setting of STRICT_5_9 (R92). -/

namespace Sys2Proof.Machine

/-- Every word that matches the row decodes to the row's instruction (R90). -/
def OpcodeRow.Decodes (strict : Bool) (r : OpcodeRow) : Prop :=
  ∀ w, r.matches w = true → decodeWord strict w = .ok (r.make w)

theorem OpcodeRow.matches_iff (r : OpcodeRow) (w : Word) : r.matches w = true ↔ w &&& r.mask = r.pat :=
  beq_iff_eq

/-- Rows 5XYN and 9XYN: the mask examines the low nibble exactly where STRICT_5_9 does (R92). -/
theorem and_mask59_eq_iff (strict : Bool) (w : Word) (f : BitVec 4) :
    w &&& mask59 strict = f ++ 0#12 ↔ fieldF w = f ∧ lowNibbleAllowed strict (fieldN w) = true := by
  cases strict with
  | false => simpa [mask59, lowNibbleAllowed] using and_mask_F000_eq_iff w f
  | true =>
    have hzero : f ++ 0#12 = f ++ 0#8 ++ 0#4 := by rw [BitVec.append_assoc]; rfl
    simpa [mask59, lowNibbleAllowed, hzero] using and_mask_F00F_eq_iff w f 0#4

section Rows
variable {strict : Bool} {f n : BitVec 4} {nn : BitVec 8} {make : Word → Instr}

theorem decodes_FFFF {pat : Word} {i : Instr} (h : decodeWord strict pat = .ok i) :
    OpcodeRow.Decodes strict ⟨0xFFFF#16, pat, fun _ => i⟩ := by
  intro w hw
  rw [OpcodeRow.matches_iff, and_mask_FFFF] at hw
  rw [hw, h]

theorem decodes_F000 (h : ∀ w, fieldF w = f → decodeWord strict w = .ok (make w)) :
    OpcodeRow.Decodes strict ⟨0xF000#16, f ++ 0#12, make⟩ := fun w hw =>
  h w ((and_mask_F000_eq_iff w f).mp ((OpcodeRow.matches_iff _ w).mp hw))

theorem decodes_mask59
    (h : ∀ w, fieldF w = f → lowNibbleAllowed strict (fieldN w) = true → decodeWord strict w = .ok (make w)) :
    OpcodeRow.Decodes strict ⟨mask59 strict, f ++ 0#12, make⟩ := by
  intro w hw
  obtain ⟨hF, hN⟩ := (and_mask59_eq_iff strict w f).mp ((OpcodeRow.matches_iff _ w).mp hw)
  exact h w hF hN

theorem decodes_class8 (h : ∀ w, fieldN w = n → decodeClass8 w = .ok (make w)) :
    OpcodeRow.Decodes strict ⟨0xF00F#16, 0x8#4 ++ 0#8 ++ n, make⟩ := by
  intro w hw
  obtain ⟨hF, hN⟩ := (and_mask_F00F_eq_iff w 0x8#4 n).mp ((OpcodeRow.matches_iff _ w).mp hw)
  rw [← h w hN, decodeWord, hF]
  rfl

theorem decodes_classE (h : ∀ w, fieldNN w = nn → decodeClassE w = .ok (make w)) :
    OpcodeRow.Decodes strict ⟨0xF0FF#16, 0xE#4 ++ 0#4 ++ nn, make⟩ := by
  intro w hw
  obtain ⟨hF, hNN⟩ := (and_mask_F0FF_eq_iff w 0xE#4 nn).mp ((OpcodeRow.matches_iff _ w).mp hw)
  rw [← h w hNN, decodeWord, hF]
  rfl

theorem decodes_classF (h : ∀ w, fieldNN w = nn → decodeClassF w = .ok (make w)) :
    OpcodeRow.Decodes strict ⟨0xF0FF#16, 0xF#4 ++ 0#4 ++ nn, make⟩ := by
  intro w hw
  obtain ⟨hF, hNN⟩ := (and_mask_F0FF_eq_iff w 0xF#4 nn).mp ((OpcodeRow.matches_iff _ w).mp hw)
  rw [← h w hNN, decodeWord, hF]
  rfl

end Rows

/-- Row by row, in the table's order. -/
theorem opcodeRows_decode (strict : Bool) : ∀ r ∈ opcodeRows strict, r.Decodes strict := by
  simp only [opcodeRows, List.forall_mem_append, List.forall_mem_cons]
  refine ⟨⟨⟨⟨?_, ?_, ?_, ?_, ?_, ?_, ?_, ?_, ?_, List.forall_mem_nil _⟩,
    ⟨?_, ?_, ?_, ?_, ?_, ?_, ?_, ?_, ?_, List.forall_mem_nil _⟩⟩,
    ⟨?_, ?_, ?_, ?_, ?_, ?_, ?_, List.forall_mem_nil _⟩⟩,
    ⟨?_, ?_, ?_, ?_, ?_, ?_, ?_, ?_, ?_, List.forall_mem_nil _⟩⟩
  · exact decodes_FFFF rfl
  · exact decodes_FFFF rfl
  · exact decodes_F000 (f := 0x1#4) fun w h => by simp [decodeWord, h]
  · exact decodes_F000 (f := 0x2#4) fun w h => by simp [decodeWord, h]
  · exact decodes_F000 (f := 0x3#4) fun w h => by simp [decodeWord, h]
  · exact decodes_F000 (f := 0x4#4) fun w h => by simp [decodeWord, h]
  · exact decodes_mask59 (f := 0x5#4) fun w h hN => by simp [decodeWord, decodeClass59, h, hN]
  · exact decodes_F000 (f := 0x6#4) fun w h => by simp [decodeWord, h]
  · exact decodes_F000 (f := 0x7#4) fun w h => by simp [decodeWord, h]
  · exact decodes_class8 (n := 0x0#4) fun w hN => by simp [decodeClass8, hN]
  · exact decodes_class8 (n := 0x1#4) fun w hN => by simp [decodeClass8, hN]
  · exact decodes_class8 (n := 0x2#4) fun w hN => by simp [decodeClass8, hN]
  · exact decodes_class8 (n := 0x3#4) fun w hN => by simp [decodeClass8, hN]
  · exact decodes_class8 (n := 0x4#4) fun w hN => by simp [decodeClass8, hN]
  · exact decodes_class8 (n := 0x5#4) fun w hN => by simp [decodeClass8, hN]
  · exact decodes_class8 (n := 0x6#4) fun w hN => by simp [decodeClass8, hN]
  · exact decodes_class8 (n := 0x7#4) fun w hN => by simp [decodeClass8, hN]
  · exact decodes_class8 (n := 0xE#4) fun w hN => by simp [decodeClass8, hN]
  · exact decodes_mask59 (f := 0x9#4) fun w h hN => by simp [decodeWord, decodeClass59, h, hN]
  · exact decodes_F000 (f := 0xA#4) fun w h => by simp [decodeWord, h]
  · exact decodes_F000 (f := 0xB#4) fun w h => by simp [decodeWord, h]
  · exact decodes_F000 (f := 0xC#4) fun w h => by simp [decodeWord, h]
  · exact decodes_F000 (f := 0xD#4) fun w h => by simp [decodeWord, h]
  · exact decodes_classE (nn := 0x9E#8) fun w hNN => by simp [decodeClassE, hNN]
  · exact decodes_classE (nn := 0xA1#8) fun w hNN => by simp [decodeClassE, hNN]
  · exact decodes_classF (nn := 0x07#8) fun w hNN => by simp [decodeClassF, hNN]
  · exact decodes_classF (nn := 0x0A#8) fun w hNN => by simp [decodeClassF, hNN]
  · exact decodes_classF (nn := 0x15#8) fun w hNN => by simp [decodeClassF, hNN]
  · exact decodes_classF (nn := 0x18#8) fun w hNN => by simp [decodeClassF, hNN]
  · exact decodes_classF (nn := 0x1E#8) fun w hNN => by simp [decodeClassF, hNN]
  · exact decodes_classF (nn := 0x29#8) fun w hNN => by simp [decodeClassF, hNN]
  · exact decodes_classF (nn := 0x33#8) fun w hNN => by simp [decodeClassF, hNN]
  · exact decodes_classF (nn := 0x55#8) fun w hNN => by simp [decodeClassF, hNN]
  · exact decodes_classF (nn := 0x65#8) fun w hNN => by simp [decodeClassF, hNN]

end Sys2Proof.Machine
end

section
/-! SUPPORT. Decoding and encoding undo each other (R73, R90): every instruction has its row, every word that decodes is
the word of what it decodes to, and no word matches two rows. -/

namespace Sys2Proof.Machine

/-! ## The row of an instruction -/

/-- EncodeMatchesRow for every instruction. -/
theorem encode_matches_row (i : Instr) : Laws.EncodeMatchesRow.Statement i := by
  open Laws.EncodeMatchesRow in
  cases i with
  | clear => exact clear
  | ret => exact ret
  | jump => exact jump _
  | callSubroutine => exact callSubroutine _
  | skipIfEqual => exact skipIfEqual _ _
  | skipIfNotEqual => exact skipIfNotEqual _ _
  | skipIfRegEqual => exact skipIfRegEqual _ _ _
  | setRegister => exact setRegister _ _
  | addRegister => exact addRegister _ _
  | copy => exact copy _ _
  | bitOr => exact bitOr _ _
  | bitAnd => exact bitAnd _ _
  | bitXor => exact bitXor _ _
  | add => exact add _ _
  | subtract => exact subtract _ _
  | shiftRight => exact shiftRight _ _
  | subtractReverse => exact subtractReverse _ _
  | shiftLeft => exact shiftLeft _ _
  | skipIfRegNotEqual => exact skipIfRegNotEqual _ _ _
  | setIndex => exact setIndex _
  | jumpWithOffset => exact jumpWithOffset _
  | random => exact random _ _
  | draw => exact draw _ _ _
  | skipIfKeyPressed => exact skipIfKeyPressed _
  | skipIfKeyNotPressed => exact skipIfKeyNotPressed _
  | readDelayIntoRegister => exact readDelayIntoRegister _
  | blockingKeyWait => exact blockingKeyWait _
  | writeRegisterIntoDelay => exact writeRegisterIntoDelay _
  | writeRegisterIntoSound => exact writeRegisterIntoSound _
  | addIndex => exact addIndex _
  | fontCharacterAddress => exact fontCharacterAddress _
  | bcd => exact bcd _
  | storeRegisters => exact storeRegisters _
  | loadRegisters => exact loadRegisters _

/-- Row 5XYN (R90, R92). -/
def row5XYN (strict : Bool) : OpcodeRow :=
  ⟨mask59 strict, 0x5000#16, fun w => .skipIfRegEqual (fieldX w) (fieldY w) (fieldN w)⟩

/-- Row 9XYN (R90, R92). -/
def row9XYN (strict : Bool) : OpcodeRow :=
  ⟨mask59 strict, 0x9000#16, fun w => .skipIfRegNotEqual (fieldX w) (fieldY w) (fieldN w)⟩

/-- STRICT_5_9 changes two rows of the table and no other. -/
theorem opcodeRows_eq_set (strict : Bool) :
    opcodeRows strict = ((opcodeRows false).set 6 (row5XYN strict)).set 18 (row9XYN strict) := rfl

theorem row5XYN_matches_iff (strict : Bool) (w : Word) :
    (row5XYN strict).matches w = true ↔ fieldF w = 0x5#4 ∧ lowNibbleAllowed strict (fieldN w) = true :=
  ((row5XYN strict).matches_iff w).trans (and_mask59_eq_iff strict w 0x5#4)

theorem row9XYN_matches_iff (strict : Bool) (w : Word) :
    (row9XYN strict).matches w = true ↔ fieldF w = 0x9#4 ∧ lowNibbleAllowed strict (fieldN w) = true :=
  ((row9XYN strict).matches_iff w).trans (and_mask59_eq_iff strict w 0x9#4)

/-- A word that matches a row with STRICT_5_9 off, and whose instruction is well-formed, has the same instruction in the
table for either setting. -/
theorem exists_row_of_wellFormed {strict : Bool} {r : OpcodeRow} {w : Word} (hr : r ∈ opcodeRows false)
    (hm : r.matches w = true) (hwf : (r.make w).wellFormed strict = true) :
    ∃ r' ∈ opcodeRows strict, r'.matches w = true ∧ r'.make w = r.make w := by
  obtain ⟨k, hk⟩ := List.mem_iff_getElem?.mp hr
  by_cases h6 : k = 6
  · subst h6
    obtain rfl : row5XYN false = r := Option.some.inj hk
    obtain ⟨hF, -⟩ := (row5XYN_matches_iff false w).mp hm
    exact ⟨row5XYN strict, List.mem_of_getElem? (i := 6) rfl, (row5XYN_matches_iff strict w).mpr ⟨hF, hwf⟩, rfl⟩
  by_cases h18 : k = 18
  · subst h18
    obtain rfl : row9XYN false = r := Option.some.inj hk
    obtain ⟨hF, -⟩ := (row9XYN_matches_iff false w).mp hm
    exact ⟨row9XYN strict, List.mem_of_getElem? (i := 18) rfl, (row9XYN_matches_iff strict w).mpr ⟨hF, hwf⟩, rfl⟩
  · refine ⟨r, List.mem_of_getElem? (i := k) ?_, hm, rfl⟩
    rw [opcodeRows_eq_set, List.getElem?_set_ne (Ne.symm h18), List.getElem?_set_ne (Ne.symm h6), hk]

theorem encode_matches_row_of_wellFormed {strict : Bool} {i : Instr} (h : i.wellFormed strict = true) :
    ∃ r ∈ opcodeRows strict, r.matches (encode i) = true ∧ r.make (encode i) = i := by
  obtain ⟨r, hr, hm, hi⟩ := encode_matches_row i
  obtain ⟨r', hr', hm', hi'⟩ := exists_row_of_wellFormed (strict := strict) hr hm (hi.symm ▸ h)
  exact ⟨r', hr', hm', hi'.trans hi⟩

/-- Settles O2: the word matches the instruction's row, the decoder agrees with the row, and the row reads the
instruction back. -/
theorem encodedInstructionDecodesToItself : Obligations.EncodedInstructionDecodesToItself := by
  intro strict i hwf
  obtain ⟨r, hr, hm, hi⟩ := encode_matches_row_of_wellFormed hwf
  rw [opcodeRows_decode strict r hr _ hm, hi]

/-! ## A decoded word is its instruction's word -/

section
variable {w : Word} {f : BitVec 4}

theorem append_nibbles_of_class (h : (fieldF w).toNat = f.toNat) : f ++ fieldX w ++ fieldY w ++ fieldN w = w := by
  rw [← BitVec.eq_of_toNat_eq h, append_fields_nibbles]

theorem append_byte_of_class (h : (fieldF w).toNat = f.toNat) : f ++ fieldX w ++ fieldNN w = w := by
  rw [← BitVec.eq_of_toNat_eq h, append_fields_byte]

theorem append_imm12_of_class (h : (fieldF w).toNat = f.toNat) : f ++ fieldNNN w = w := by
  rw [← BitVec.eq_of_toNat_eq h, append_fields_imm12]

end

theorem encode_of_decodeClass0 {w : Word} {i : Instr} (strict : Bool) (h : decodeClass0 w = .ok i) :
    encode i = 0x0#4 ++ fieldNNN w ∧ i.wellFormed strict = true := by
  obtain ⟨hNNN, rfl⟩ | ⟨hNNN, rfl⟩ := decodeClass0_ok h <;> rw [hNNN] <;> exact ⟨rfl, rfl⟩

theorem encode_of_decodeClass8 {w : Word} {i : Instr} (strict : Bool) (h : decodeClass8 w = .ok i) :
    encode i = 0x8#4 ++ fieldX w ++ fieldY w ++ fieldN w ∧ i.wellFormed strict = true := by
  unfold decodeClass8 at h
  have hN : fieldN w = BitVec.ofNat 4 (fieldN w).toNat := by simp
  split at h
  case h_10 => cases h
  all_goals
    next hn =>
      rw [hn] at hN
      cases h
      rw [hN]
      exact ⟨rfl, rfl⟩

theorem encode_of_decodeClassE {w : Word} {i : Instr} (strict : Bool) (h : decodeClassE w = .ok i) :
    encode i = 0xE#4 ++ fieldX w ++ fieldNN w ∧ i.wellFormed strict = true := by
  obtain ⟨hNN, rfl⟩ | ⟨hNN, rfl⟩ := decodeClassE_ok h <;> rw [hNN] <;> exact ⟨rfl, rfl⟩

theorem encode_of_decodeClassF {w : Word} {i : Instr} (strict : Bool) (h : decodeClassF w = .ok i) :
    encode i = 0xF#4 ++ fieldX w ++ fieldNN w ∧ i.wellFormed strict = true := by
  unfold decodeClassF at h
  split_ifs at h with h1 h2 h3 h4 h5 h6 h7 h8 h9
  all_goals
    cases h
    simp [encode, Instr.wellFormed, *]

/-- Settles O3: in each class the instruction keeps every field of the word. -/
theorem decodedWordEncodesBack : Obligations.DecodedWordEncodesBack := by
  intro strict w i h
  unfold decodeWord at h
  split at h
  case h_1 hF => exact (encode_of_decodeClass0 strict h).imp_left (·.trans (append_imm12_of_class hF))
  case h_2 hF | h_3 hF | h_11 hF | h_12 hF => cases h; exact ⟨append_imm12_of_class hF, rfl⟩
  case h_4 hF | h_5 hF | h_7 hF | h_8 hF | h_13 hF => cases h; exact ⟨append_byte_of_class hF, rfl⟩
  case h_6 hF | h_10 hF =>
    obtain ⟨hN, rfl⟩ := decodeClass59_ok h
    exact ⟨append_nibbles_of_class hF, hN⟩
  case h_9 hF => exact (encode_of_decodeClass8 strict h).imp_left (·.trans (append_nibbles_of_class hF))
  case h_14 hF => cases h; exact ⟨append_nibbles_of_class hF, rfl⟩
  case h_15 hF => exact (encode_of_decodeClassE strict h).imp_left (·.trans (append_byte_of_class hF))
  case h_16 =>
    have hF : (fieldF w).toNat = 15 := by
      have hlt := (fieldF w).isLt
      simp only [imp_false] at *
      omega
    exact (encode_of_decodeClassF strict h).imp_left (·.trans (append_byte_of_class hF))

/-! ## No word matches two rows -/

/-- Two rows whose match columns differ under both masks share no word. -/
theorem OpcodeRow.not_both_match {r r' : OpcodeRow} (h : r.pat &&& r'.mask ≠ r'.pat &&& r.mask) (w : Word) :
    ¬(r.matches w = true ∧ r'.matches w = true) := by
  rintro ⟨hr, hr'⟩
  rw [OpcodeRow.matches_iff] at hr hr'
  refine h ?_
  rw [← hr, ← hr', BitVec.and_assoc, BitVec.and_assoc, BitVec.and_comm r.mask]

theorem opcodeRows_apart (strict : Bool) :
    (opcodeRows strict).Pairwise fun r r' => r.pat &&& r'.mask ≠ r'.pat &&& r.mask := by
  cases strict <;> decide

/-- Settles O4: the rows decode as they say; a word that decodes is its instruction's word, which matches a row; and two
rows always differ in a bit that both examine. -/
theorem decoderAgreesWithOpcodeTable : Obligations.DecoderAgreesWithOpcodeTable := by
  intro strict
  refine ⟨rfl, opcodeRows_decode strict, fun w hno => ?_, (opcodeRows_apart strict).imp OpcodeRow.not_both_match⟩
  cases hd : decodeWord strict w with
  | error e => exact ⟨e, rfl⟩
  | ok i =>
    obtain ⟨rfl, hwf⟩ := decodedWordEncodesBack strict w i hd
    obtain ⟨r, hr, hm, -⟩ := encode_matches_row_of_wellFormed hwf
    exact absurd hm (by simp [hno r hr])

/-- Settles O5, by running the decoder on the seventeen words. -/
theorem decodeTestPoints : Obligations.DecodeTestPoints := by
  unfold Obligations.DecodeTestPoints
  decide

end Sys2Proof.Machine
end

section
/-! SUPPORT. The fetch as arithmetic (R70) and the step around the dispatched instruction (R74, R211, R212). -/

namespace Sys2Proof.Machine

/-- Settles O6: the three places PC can be, at or past the end of memory, on its last byte, or before it. -/
theorem fetchReadsTwoBytesBigEndian : Obligations.FetchReadsTwoBytesBigEndian := fun _ =>
  ⟨fetch16_eq_error_of_high, fetch16_eq_error_of_low, fun h => ⟨_, fetch16_eq h, toNat_wordOfBytes _ _⟩⟩

theorem toNat_countDown (t : Byte) : (countDown t).toNat = t.toNat - 1 := by
  unfold countDown
  split <;> bv_omega

theorem wordAtPC_eq {s : State} (h : s.pc.toNat + 1 < memSize) :
    s.wordAtPC = some (wordOfBytes (s.peek s.pc.toNat) (s.peek (s.pc.toNat + 1))) := if_pos h

/-- A running machine whose word at PC is an instruction executes it and counts down (R74). -/
theorem step_of_decodeWord {s : State} {w : Word} {i : Instr} (hr : s.status = .running) (hw : s.wordAtPC = some w)
    (hd : decodeWord s.cfg.strict59 w = .ok i) : step s = afterDispatch (exec i (s.sampleInputs.fetched w)) := by
  rw [step_of_wordAtPC hr hw, dispatchWord_known (by simpa using hd)]

/-- The fetch leaves the inputs the step took as they are. -/
theorem inputsTaken_fetched {s u : State} (h : s.inputsTaken u) (w : Word) : s.inputsTaken (u.fetched w) := h

/-- Settles O7: sampling and fetch set the fields they are said to set, and the countdown follows a next state only. -/
theorem stepRunsDecodedInstruction : Obligations.StepRunsDecodedInstruction := by
  intro s i hr hpc hd
  have hstep := step_of_decodeWord hr (wordAtPC_eq hpc) hd
  have htaken := inputsTaken_fetched (inputsTaken_sampleInputs s)
  refine ⟨_, rfl, by simp, by simp, by simp, by simp, by simp, by simp, by simp, by simp, by simp, by simp, by simp,
    by simp, by simp, htaken _, fun t ht => ?_, fun f hf => ?_⟩
  · rw [ht] at hstep
    exact ⟨t.timerTick, hstep, toNat_countDown t.dt, toNat_countDown t.st, by simp [bne, beq_eq_decide], rfl⟩
  · rw [hstep, hf]
    rfl

end Sys2Proof.Machine
end

section
/-! SUPPORT. The control-flow instructions (R100-R108): the words that decode to an instruction, the values they put into
PC as numbers, one equation per instruction and outcome, and the obligations that follow from them. -/

namespace Sys2Proof.Machine

/-- A word decodes to an instruction exactly when it is that instruction's word and the configuration has it. -/
theorem decodeWord_eq_ok_iff {strict : Bool} {w : Word} {i : Instr} :
    decodeWord strict w = .ok i ↔ w = encode i ∧ i.wellFormed strict = true := by
  constructor
  · intro h
    obtain ⟨rfl, hwf⟩ := decodedWordEncodesBack strict w i h
    exact ⟨rfl, hwf⟩
  · rintro ⟨rfl, hwf⟩
    exact encodedInstructionDecodesToItself strict i hwf

/-! ## The values put into PC -/

theorem toNat_zextImm12 (nnn : Imm12) : (zextImm12 nnn).toNat = nnn.toNat :=
  BitVec.toNat_setWidth_of_le (by decide)

theorem toNat_zextByte (b : Byte) : (zextByte b).toNat = b.toNat :=
  BitVec.toNat_setWidth_of_le (by decide)

/-- BNNN's sum is at most 0x10FE, so 16 bits hold it (R107, D3). -/
theorem toNat_zextImm12_add_zextByte (nnn : Imm12) (b : Byte) :
    (zextImm12 nnn + zextByte b).toNat = nnn.toNat + b.toNat := by
  rw [BitVec.toNat_add, toNat_zextImm12, toNat_zextByte]
  omega

theorem toNat_jumpOffsetX (nnn : Imm12) : (jumpOffsetX nnn).toNat = nnn.toNat / 256 := by
  rw [jumpOffsetX, BitVec.extractLsb'_toNat, Nat.shiftRight_eq_div_pow]
  omega

theorem State.jumpBase_of_off {s : State} (nnn : Imm12) (h : s.cfg.jumpOffsetUsesVX = false) :
    s.jumpBase nnn = s.reg 0#4 := by
  simp [State.jumpBase, h]

theorem State.jumpBase_of_on {s : State} {nnn : Imm12} {x : RegIx} (h : s.cfg.jumpOffsetUsesVX = true)
    (hx : x.toNat = nnn.toNat / 256) : s.jumpBase nnn = s.reg x := by
  have hX : jumpOffsetX nnn = x := BitVec.eq_of_toNat_eq ((toNat_jumpOffsetX nnn).trans hx.symm)
  simp [State.jumpBase, h, hX]

/-! ## Return and CallSubroutine -/

theorem exec_ret_of_stack_eq_append {s : State} {rest : List Word} {a : Word} (h : s.stack = rest ++ [a]) :
    exec .ret s = .next { s with pc := a, stack := rest } := by
  rw [exec, execReturn, h, List.getLast?_concat, List.dropLast_concat]
  rfl

theorem exec_ret_of_stack_eq_nil {s : State} (h : s.stack = []) : exec .ret s = .fault (.stackUnderflow s.pc0) := by
  rw [exec, execReturn, h]
  rfl

theorem exec_callSubroutine_of_ne_limit {s : State} (nnn : Imm12) (h : s.cfg.stackLimit ≠ some s.stack.length) :
    exec (.callSubroutine nnn) s = .next ((s.push s.pc).setPC (zextImm12 nnn)) := if_neg h

theorem exec_callSubroutine_of_eq_limit {s : State} (nnn : Imm12) (h : s.cfg.stackLimit = some s.stack.length) :
    exec (.callSubroutine nnn) s = .fault (.stackOverflow s.pc0) := if_pos h

/-- Settles O24: 0x00EE is Return's word, and a stack that is not empty ends in the entry popped. -/
theorem returnPopsOrUnderflows : Obligations.ReturnPopsOrUnderflows := by
  refine ⟨fun strict w => ?_, fun s rest a => exec_ret_of_stack_eq_append, fun s => exec_ret_of_stack_eq_nil⟩
  simp [decodeWord_eq_ok_iff, encode, Instr.wellFormed]

/-- Settles O26: below STACK_LIMIT the call pushes PC as it stands, and at it the call is fatal. -/
theorem callPushesOrOverflows : Obligations.CallPushesOrOverflows :=
  ⟨fun nnn _ h => ⟨_, exec_callSubroutine_of_ne_limit nnn h, toNat_zextImm12 nnn, rfl, rfl⟩,
    fun nnn _ => exec_callSubroutine_of_eq_limit nnn⟩

/-- Settles O27: the call left its stack with the advanced PC on top, so that is what Return pops. -/
theorem returnResumesAfterCall : Obligations.ReturnResumesAfterCall := by
  intro nnn s t u hcall hstack
  obtain ⟨-, rfl⟩ := exec_callSubroutine_next hcall
  have hpushed : u.stack = s.stack ++ [s.pc] := by simpa using hstack
  exact exec_ret_of_stack_eq_append hpushed

/-! ## Jumps -/

theorem exec_jump (nnn : Imm12) (s : State) : exec (.jump nnn) s = .next (s.setPC (zextImm12 nnn)) := rfl

theorem exec_jumpWithOffset (nnn : Imm12) (s : State) :
    exec (.jumpWithOffset nnn) s = .next (s.setPC (zextImm12 nnn + zextByte (s.jumpBase nnn))) := rfl

/-- Settles O25. -/
theorem jumpSetsPC : Obligations.JumpSetsPC := fun nnn s =>
  ⟨_, exec_jump nnn s, toNat_zextImm12 nnn, rfl⟩

/-- Settles O30: the sum does not wrap, and its base is V0 or the VX that NNN names. -/
theorem jumpWithOffsetSetsPC : Obligations.JumpWithOffsetSetsPC := by
  intro nnn s
  refine ⟨_, exec_jumpWithOffset nnn s, rfl, fun hoff => ?_, fun x hon hx => ?_⟩
  · rw [State.setPC_pc, toNat_zextImm12_add_zextByte, State.jumpBase_of_off nnn hoff]
  · rw [State.setPC_pc, toNat_zextImm12_add_zextByte, State.jumpBase_of_on hon hx]

/-! ## Skips -/

theorem exec_skipIfEqual (x : RegIx) (nn : Imm8) (s : State) :
    exec (.skipIfEqual x nn) s = .next (s.skipIf (s.reg x == nn)) := rfl

theorem exec_skipIfNotEqual (x : RegIx) (nn : Imm8) (s : State) :
    exec (.skipIfNotEqual x nn) s = .next (s.skipIf (s.reg x != nn)) := rfl

theorem exec_skipIfRegEqual (x y : RegIx) (n : Nibble) (s : State) :
    exec (.skipIfRegEqual x y n) s = .next (s.skipIf (s.reg x == s.reg y)) := rfl

theorem exec_skipIfRegNotEqual (x y : RegIx) (n : Nibble) (s : State) :
    exec (.skipIfRegNotEqual x y n) s = .next (s.skipIf (s.reg x != s.reg y)) := rfl

/-- A skip on equality and one on inequality of the same bytes: exactly one of them adds 2 to PC (R108). -/
theorem State.skipIf_beq_bne (s : State) (a b : Byte) :
    (a = b → s.skipIf (a == b) = { s with pc := s.pc + 2#16 } ∧ s.skipIf (a != b) = s) ∧
    (a ≠ b → s.skipIf (a == b) = s ∧ s.skipIf (a != b) = { s with pc := s.pc + 2#16 }) := by
  constructor
  · rintro rfl
    rw [beq_self_eq_true, bne_self_eq_false]
    exact ⟨s.skipIf_true, s.skipIf_false⟩
  · intro h
    rw [beq_false_of_ne h, bne_iff_ne.mpr h]
    exact ⟨s.skipIf_false, s.skipIf_true⟩

/-- Settles O28: both instructions compare VX with NN. -/
theorem immediateSkips : Obligations.ImmediateSkips := by
  intro x nn s
  simpa only [exec_skipIfEqual, exec_skipIfNotEqual, Host.Outcome.next.injEq] using s.skipIf_beq_bne (s.reg x) nn

/-- Settles O29: both instructions compare VX with VY, whatever N. -/
theorem registerSkips : Obligations.RegisterSkips := by
  intro x y n s
  simpa only [exec_skipIfRegEqual, exec_skipIfRegNotEqual, Host.Outcome.next.injEq] using
    s.skipIf_beq_bne (s.reg x) (s.reg y)

end Sys2Proof.Machine
end

section
/-! SUPPORT. The immediate and index-set instructions (R120-R123): the frame of a write to one V register, one equation
per instruction, and the obligations that follow from them. -/

namespace Sys2Proof.Machine

/-- A write to VX changes VX alone, X = F included (R21, R22). -/
theorem changesOnlyRegs_setReg (s : State) (x : RegIx) (b : Byte) : changesOnlyRegs s (s.setReg x b) [x] := by
  refine ⟨rfl, fun r hr => ?_⟩
  have hne : r ≠ x := List.ne_of_not_mem_cons hr
  exact s.reg_setReg_of_ne b hne

theorem exec_setRegister (x : RegIx) (nn : Imm8) (s : State) :
    exec (.setRegister x nn) s = .next (s.setReg x nn) := rfl

theorem exec_addRegister (x : RegIx) (nn : Imm8) (s : State) :
    exec (.addRegister x nn) s = .next (s.setReg x (s.reg x + nn)) := rfl

theorem exec_setIndex (nnn : Imm12) (s : State) : exec (.setIndex nnn) s = .next (s.setI (zextImm12 nnn)) := rfl

theorem exec_random (x : RegIx) (nn : Imm8) (s : State) :
    exec (.random x nn) s = .next (s.setReg x (s.rnd &&& nn)) := rfl

/-- Settles O31: the instruction is one register write. -/
theorem setRegisterWritesImmediate : Obligations.SetRegisterWritesImmediate := fun x nn s =>
  ⟨_, exec_setRegister x nn s, s.reg_setReg_same x nn, changesOnlyRegs_setReg s x nn⟩

/-- Settles O32: a byte sum is the sum modulo 256, and no flag is written. -/
theorem addRegisterWrapsWithoutFlag : Obligations.AddRegisterWrapsWithoutFlag := by
  intro x nn s
  refine ⟨_, exec_addRegister x nn s, ?_, changesOnlyRegs_setReg s x _⟩
  rw [State.reg_setReg_same, BitVec.toNat_add]

/-- Settles O33: zero extension to 16 bits keeps the number. -/
theorem setIndexWritesImmediate : Obligations.SetIndexWritesImmediate := fun nnn s =>
  ⟨_, exec_setIndex nnn s, toNat_zextImm12 nnn, rfl⟩

/-- Settles O34: the draw stays the state's `rnd`, of which nothing is assumed. -/
theorem randomMasksDraw : Obligations.RandomMasksDraw := by
  intro x nn s
  refine ⟨_, exec_random x nn s, fun k => ?_, changesOnlyRegs_setReg s x _⟩
  rw [State.reg_setReg_same, BitVec.getLsbD_and]

end Sys2Proof.Machine
end

section
/-! SUPPORT. The class-8 register-register instructions (R130-R140): what a result followed by a flag leaves behind, the
numbers behind the results and flags, one equation per instruction, and the obligations that follow from them. -/

namespace Sys2Proof.Machine

/-! ## A result, then a flag (R140) -/

/-- A result in VX and a flag in VF change VX and VF alone. -/
theorem changesOnlyRegs_writeResultThenFlag (s : State) (x : RegIx) (b : Byte) (f : Bool) :
    changesOnlyRegs s (s.writeResultThenFlag x b f) [x, vf] := by
  refine ⟨writeResultThenFlag_eq_update s x b f, fun r hr => ?_⟩
  have ⟨hx, hf⟩ : r ≠ x ∧ r ≠ vf := by simpa using hr
  exact s.reg_writeResultThenFlag_other b f hx hf

/-! ## Results and flags as numbers -/

theorem flagByte_decide (p : Prop) [Decidable p] : flagByte (decide p) = if p then 1#8 else 0#8 := by
  simp only [flagByte, decide_eq_true_eq]

theorem toNat_flagByte (f : Bool) : (flagByte f).toNat = f.toNat := by
  cases f <;> rfl

/-- The bit that 8XY6 shifts out is the remainder of the halving (R136). -/
theorem toNat_flagByte_shiftedOutRight (b : Byte) : (flagByte (shiftedOutRight b)).toNat = b.toNat % 2 := by
  rw [toNat_flagByte, shiftedOutRight, BitVec.getLsbD, Nat.toNat_testBit, pow_zero, Nat.div_one]

/-- The bit that 8XYE shifts out is the quotient by 128: a byte holds no bit above it (R138). -/
theorem toNat_flagByte_shiftedOutLeft (b : Byte) : (flagByte (shiftedOutLeft b)).toNat = b.toNat / 128 := by
  have hlt : b.toNat / 128 < 2 := by omega
  rw [toNat_flagByte, shiftedOutLeft, BitVec.getLsbD, Nat.toNat_testBit]
  exact Nat.mod_eq_of_lt hlt

theorem toNat_shiftRight_one (b : Byte) : (b >>> 1).toNat = b.toNat / 2 := by
  rw [BitVec.toNat_ushiftRight, Nat.shiftRight_eq_div_pow, pow_one]

theorem toNat_shiftLeft_one (b : Byte) : (b <<< 1).toNat = b.toNat * 2 % 256 := by
  rw [BitVec.toNat_shiftLeft, Nat.shiftLeft_eq, pow_one]

/-- Subtraction modulo 256 (R139), with 256 added first so that the natural subtraction does not truncate. -/
theorem toNat_byte_sub (a b : Byte) : (a - b).toNat = (a.toNat + 256 - b.toNat) % 256 := by
  have hb : b.toNat ≤ 256 := b.isLt.le
  rw [Nat.add_sub_assoc hb]
  exact BitVec.toNat_sub' a b

/-- What 8XY5 and 8XY7 leave, for either order of the operands (R135, R137); with X = F, VX holds the flag instead. -/
theorem writeResultThenFlag_difference (s : State) (x : RegIx) (a b : Byte) :
    (x ≠ vf → ((s.writeResultThenFlag x (a - b) (noBorrow a b)).reg x).toNat = (a.toNat + 256 - b.toNat) % 256) ∧
    (s.writeResultThenFlag x (a - b) (noBorrow a b)).reg vf = (if a.toNat ≥ b.toNat then 1#8 else 0#8) ∧
    changesOnlyRegs s (s.writeResultThenFlag x (a - b) (noBorrow a b)) [x, vf] := by
  refine ⟨fun hx => ?_, ?_, changesOnlyRegs_writeResultThenFlag s x _ _⟩
  · rw [State.reg_writeResultThenFlag_result s _ _ hx, toNat_byte_sub]
  · rw [State.reg_writeResultThenFlag_vf, noBorrow, flagByte_decide]

/-! ## The instructions -/

theorem exec_copy (x y : RegIx) (s : State) : exec (.copy x y) s = .next (s.setReg x (s.reg y)) := rfl

theorem exec_bitOr (x y : RegIx) (s : State) :
    exec (.bitOr x y) s = .next (s.setReg x (s.reg x ||| s.reg y)) := rfl

theorem exec_bitAnd (x y : RegIx) (s : State) :
    exec (.bitAnd x y) s = .next (s.setReg x (s.reg x &&& s.reg y)) := rfl

theorem exec_bitXor (x y : RegIx) (s : State) :
    exec (.bitXor x y) s = .next (s.setReg x (s.reg x ^^^ s.reg y)) := rfl

theorem exec_add (x y : RegIx) (s : State) :
    exec (.add x y) s = .next (s.writeResultThenFlag x (s.reg x + s.reg y) (carryOut (s.reg x) (s.reg y))) := rfl

theorem exec_subtract (x y : RegIx) (s : State) :
    exec (.subtract x y) s = .next (s.writeResultThenFlag x (s.reg x - s.reg y) (noBorrow (s.reg x) (s.reg y))) := rfl

theorem exec_subtractReverse (x y : RegIx) (s : State) :
    exec (.subtractReverse x y) s =
      .next (s.writeResultThenFlag x (s.reg y - s.reg x) (noBorrow (s.reg y) (s.reg x))) := rfl

theorem exec_shiftRight (x y : RegIx) (s : State) :
    exec (.shiftRight x y) s =
      .next (s.writeResultThenFlag x (s.shiftSource x y >>> 1) (shiftedOutRight (s.shiftSource x y))) := rfl

theorem exec_shiftLeft (x y : RegIx) (s : State) :
    exec (.shiftLeft x y) s =
      .next (s.writeResultThenFlag x (s.shiftSource x y <<< 1) (shiftedOutLeft (s.shiftSource x y))) := rfl

/-! ## The obligations -/

/-- Settles O35: the instruction is one register write. -/
theorem copyMovesRegister : Obligations.CopyMovesRegister := fun x y s =>
  ⟨_, exec_copy x y s, s.reg_setReg_same x _, changesOnlyRegs_setReg s x _⟩

/-- Settles O36: each instruction is one register write, of the bitwise combination of the old VX and VY. -/
theorem bitwiseOperationsLeaveFlag : Obligations.BitwiseOperationsLeaveFlag := by
  intro x y s
  refine ⟨⟨_, exec_bitOr x y s, changesOnlyRegs_setReg s x _, fun k => ?_⟩,
    ⟨_, exec_bitAnd x y s, changesOnlyRegs_setReg s x _, fun k => ?_⟩,
    ⟨_, exec_bitXor x y s, changesOnlyRegs_setReg s x _, fun k => ?_⟩⟩
  · rw [State.reg_setReg_same, BitVec.getLsbD_or]
  · rw [State.reg_setReg_same, BitVec.getLsbD_and]
  · rw [State.reg_setReg_same, BitVec.getLsbD_xor]

/-- Settles O37: both operands are those of the state before the writes, so the flag is the old sum's carry. -/
theorem addSetsCarry : Obligations.AddSetsCarry := by
  intro x y s
  refine ⟨_, exec_add x y s, fun hx => ?_, ?_, changesOnlyRegs_writeResultThenFlag s x _ _⟩
  · rw [State.reg_writeResultThenFlag_result s _ _ hx, BitVec.toNat_add]
  · rw [State.reg_writeResultThenFlag_vf, carryOut, flagByte_decide]

/-- Settles O38: the two instructions are one subtraction with the operands swapped. -/
theorem subtractsSetNoBorrow : Obligations.SubtractsSetNoBorrow := fun x y s =>
  ⟨⟨_, exec_subtract x y s, writeResultThenFlag_difference s x (s.reg x) (s.reg y)⟩,
    ⟨_, exec_subtractReverse x y s, writeResultThenFlag_difference s x (s.reg y) (s.reg x)⟩⟩

/-- Settles O39: `b` is the shift's source under either setting of SHIFT_COPIES_VY. -/
theorem shiftsSetBitShiftedOut : Obligations.ShiftsSetBitShiftedOut := by
  intro x y s b hb
  have hsrc : s.shiftSource x y = b := hb.symm
  refine ⟨⟨_, exec_shiftRight x y s, fun hx => ?_, ?_, changesOnlyRegs_writeResultThenFlag s x _ _⟩,
    ⟨_, exec_shiftLeft x y s, fun hx => ?_, ?_, changesOnlyRegs_writeResultThenFlag s x _ _⟩⟩
  · rw [State.reg_writeResultThenFlag_result s _ _ hx, hsrc, toNat_shiftRight_one]
  · rw [State.reg_writeResultThenFlag_vf, hsrc, toNat_flagByte_shiftedOutRight]
  · rw [State.reg_writeResultThenFlag_result s _ _ hx, hsrc, toNat_shiftLeft_one]
  · rw [State.reg_writeResultThenFlag_vf, hsrc, toNat_flagByte_shiftedOutLeft]

end Sys2Proof.Machine
end

section
/-! SUPPORT. The memory and index instructions (R150-R156): what a block stored from I and a block loaded from I leave
behind, the numbers behind I and the digits, one equation per instruction that completes, and the obligations that
follow from them. -/

namespace Sys2Proof.Machine

/-! ## A block of memory from I (R152-R155) -/

/-- The addresses of a block rise from I (R55). -/
theorem State.ea_zero_add (s : State) (k : Nat) : s.ea 0 + k = s.ea k := rfl

/-- After a block store from I, the byte at I + k is the block's k-th. -/
theorem peek_setMem_writeList_ea (s : State) (bs : List Byte) {k : Nat} (hk : k < bs.length) :
    (s.setMem (Memory.writeList s.mem (s.ea 0) bs)).peek (s.ea k) = bs[k] := by
  have hin : s.ea 0 ≤ s.ea 0 + k ∧ s.ea 0 + k < s.ea 0 + bs.length := by omega
  rw [State.peek, State.setMem_mem, Memory.read_writeList, ← s.ea_zero_add k, if_pos hin, Nat.add_sub_cancel_left,
    List.getD_eq_getElem _ _ hk]

/-- A block store changes no byte outside the block. -/
theorem memorySameOutside_setMem_writeList (s : State) (a : Nat) (bs : List Byte) :
    memorySameOutside s (s.setMem (Memory.writeList s.mem a bs)) a bs.length := fun k hk => by
  rw [State.peek, State.setMem_mem, Memory.read_writeList, if_neg hk, State.peek]

/-- After a block load of X + 1 bytes, each of V0..VX is the byte at its place (R155). -/
theorem reg_setV_writeRegs_range (s : State) (f : Nat → Byte) {x r : RegIx} (hr : r.toNat ≤ x.toNat) :
    (s.setV (writeRegs s.v 0 ((List.range (x.toNat + 1)).map f))).reg r = f r.toNat := by
  have hlen : ((List.range (x.toNat + 1)).map f).length = x.toNat + 1 := by simp
  rw [State.reg_setV, getElem_writeRegs, dif_pos (by omega)]
  simp

/-- A block store from I faults at the first address outside memory (R210, D12). -/
theorem storeBlock_error_at_ea {s : State} {bs : List Byte} {k : Nat} (hk : k < bs.length) (hbad : memSize ≤ s.ea k)
    (hgood : ∀ j, j < k → s.ea j < memSize) :
    storeBlock s.mem s.pc0 (s.ea 0) bs = .error (.addressOutOfRange (s.ea k) s.pc0) :=
  storeBlock_error_at bs s.pc0 s.mem (s.ea 0) k hk hbad hgood

/-- A block load from I faults at the first address outside memory (R210, D12). -/
theorem loadBlock_error_at_ea {s : State} {n k : Nat} (hk : k < n) (hbad : memSize ≤ s.ea k)
    (hgood : ∀ j, j < k → s.ea j < memSize) :
    loadBlock s.mem s.pc0 (s.ea 0) n = .error (.addressOutOfRange (s.ea k) s.pc0) :=
  loadBlock_error_at s.mem s.pc0 n (s.ea 0) k hk hbad hgood

/-- Every k ≤ X is a place in FX55's block V0..VX (R153). -/
theorem lt_length_regsUpTo (s : State) {x : RegIx} {k : Nat} (hk : k ≤ x.toNat) : k < (s.regsUpTo x).length := by
  rw [length_regsUpTo]
  exact Nat.lt_succ_of_le hk

/-! ## I and the digits as numbers -/

theorem State.advanceIndex_eq_update (s : State) (x : RegIx) :
    s.advanceIndex x = { s with i := (s.advanceIndex x).i } := by
  unfold State.advanceIndex
  split <;> rfl

/-- The last line of FX55 and FX65 (R153, D4). -/
theorem toNat_advanceIndex_i (s : State) (x : RegIx) :
    (s.advanceIndex x).i.toNat =
      if s.cfg.loadStoreIncrementsI then (s.i.toNat + x.toNat + 1) % 65536 else s.i.toNat := by
  cases hq : s.cfg.loadStoreIncrementsI
  · rw [State.advanceIndex_i_of_off x hq, if_neg Bool.false_ne_true]
  · have hx : (x.setWidth 16).toNat = x.toNat := BitVec.toNat_setWidth_of_le (by decide)
    rw [State.advanceIndex, if_pos hq, if_pos rfl, State.setI_i, BitVec.toNat_add, BitVec.toNat_add, hx,
      BitVec.toNat_ofNat]
    omega

/-- At most 0x09B, so 16 bits hold it (R151). -/
theorem toNat_glyphAddress (b : Byte) : (glyphAddress b).toNat = 0x50 + 5 * (b.toNat % 16) := by
  have hlow : (b &&& 0x0F#8).toNat = b.toNat % 16 := Nat.and_two_pow_sub_one_eq_mod b.toNat 4
  rw [glyphAddress, BitVec.toNat_add, BitVec.toNat_mul, toNat_zextByte, hlow, BitVec.toNat_ofNat, BitVec.toNat_ofNat]
  omega

@[simp] theorem length_bcdDigits (b : Byte) : (bcdDigits b).length = 3 := rfl

/-- A number no greater than a byte is a byte's number. -/
theorem toNat_ofNat_of_le_byte {n : Nat} {b : Byte} (h : n ≤ b.toNat) : (BitVec.ofNat 8 n).toNat = n :=
  (BitVec.toNat_ofNat n 8).trans (Nat.mod_eq_of_lt (Nat.lt_of_le_of_lt h b.isLt))

/-! ## The instructions -/

theorem exec_fontCharacterAddress (x : RegIx) (s : State) :
    exec (.fontCharacterAddress x) s = .next (s.setI (glyphAddress (s.reg x))) := rfl

theorem exec_bcd_of_ea_lt {s : State} (x : RegIx) (h : s.ea 2 < memSize) :
    exec (.bcd x) s = .next (s.setMem (Memory.writeList s.mem (s.ea 0) (bcdDigits (s.reg x)))) := by
  rw [exec, execBcd, storeBlock_eq _ _ _ _ h]

theorem exec_storeRegisters_of_ea_lt {s : State} {x : RegIx} (h : s.ea x.toNat < memSize) :
    exec (.storeRegisters x) s =
      .next ((s.setMem (Memory.writeList s.mem (s.ea 0) (s.regsUpTo x))).advanceIndex x) := by
  have hin : s.ea 0 + (s.regsUpTo x).length ≤ memSize := by
    rw [length_regsUpTo]
    exact h
  rw [exec, execStoreRegisters, storeBlock_eq _ _ _ _ hin]

theorem exec_loadRegisters_of_ea_lt {s : State} {x : RegIx} (h : s.ea x.toNat < memSize) :
    exec (.loadRegisters x) s =
      .next ((s.setV (writeRegs s.v 0 ((List.range (x.toNat + 1)).map fun k => s.peek (s.ea k)))).advanceIndex x) := by
  rw [exec, execLoadRegisters, loadBlock_eq _ _ _ _ h]
  rfl

/-- FX55 completes only when its whole block lies in memory (R154). -/
theorem ea_lt_of_exec_storeRegisters_next {x : RegIx} {s t : State} (h : exec (.storeRegisters x) s = .next t) :
    s.ea x.toNat < memSize := by
  obtain ⟨m, hm, -⟩ := exec_storeRegisters_next h
  obtain ⟨hnil | hin, -⟩ := storeBlock_ok _ _ hm
  · exact absurd (hnil ▸ length_regsUpTo s x) (Nat.succ_ne_zero _).symm
  · rwa [length_regsUpTo] at hin

/-! ## The obligations -/

/-- Settles O42: the block is the three digits, each of which a byte holds. -/
theorem bcdStoresDigits : Obligations.BcdStoresDigits := by
  intro x s h
  have hbyte (k : Nat) (hk : k < 3) := peek_setMem_writeList_ea s (bcdDigits (s.reg x)) hk
  refine ⟨_, exec_bcd_of_ea_lt x h, ?_, ?_, ?_, memorySameOutside_setMem_writeList s _ _, rfl⟩
  · rw [hbyte 0 (by decide)]
    exact toNat_ofNat_of_le_byte (Nat.div_le_self _ _)
  · rw [hbyte 1 (by decide)]
    exact toNat_ofNat_of_le_byte ((Nat.mod_le _ _).trans (Nat.div_le_self _ _))
  · rw [hbyte 2 (by decide)]
    exact toNat_ofNat_of_le_byte (Nat.mod_le _ _)

/-- Settles O43: a block store faults at its first address outside memory. -/
theorem bcdFaultsAtFirstBadAddress : Obligations.BcdFaultsAtFirstBadAddress := by
  intro x s k hk hbad hgood
  have hlt : k < (bcdDigits (s.reg x)).length := Nat.lt_succ_of_le hk
  rw [exec, execBcd, storeBlock_error_at_ea hlt hbad hgood]
  rfl

/-- Settles O44: the block is V0..VX, and I is advanced after it. -/
theorem storeRegistersWritesBlock : Obligations.StoreRegistersWritesBlock := by
  intro x s h
  refine ⟨_, exec_storeRegisters_of_ea_lt h, fun r hr => ?_, fun a ha => ?_, toNat_advanceIndex_i _ x, ?_⟩
  · rw [State.peek_advanceIndex, peek_setMem_writeList_ea s _ (lt_length_regsUpTo s hr), getElem_regsUpTo]
  · rw [← length_regsUpTo s x] at ha
    rw [State.peek_advanceIndex, memorySameOutside_setMem_writeList s _ _ a ha]
  · rw [State.advanceIndex_mem]
    exact State.advanceIndex_eq_update _ x

/-- Settles O45: the registers up to VX take the block's bytes, and I is advanced after them. -/
theorem loadRegistersReadsBlock : Obligations.LoadRegistersReadsBlock := by
  intro x s h
  refine ⟨_, exec_loadRegisters_of_ea_lt h, fun r hr => ?_, fun r hr => ?_, toNat_advanceIndex_i _ x, ?_⟩
  · rw [State.reg_advanceIndex, reg_setV_writeRegs_range s _ hr]
  · rw [State.reg_advanceIndex]
    exact reg_setV_writeRegs_of_lt s (by simp) hr
  · rw [State.advanceIndex_v]
    exact State.advanceIndex_eq_update _ x

/-- Settles O46: a block transfer faults at its first address outside memory, whichever way it goes. -/
theorem blockTransfersFaultAtFirstBadAddress : Obligations.BlockTransfersFaultAtFirstBadAddress := by
  intro x s k hk hbad hgood
  constructor
  · rw [exec, execStoreRegisters, storeBlock_error_at_ea (lt_length_regsUpTo s hk) hbad hgood]
    rfl
  · rw [exec, execLoadRegisters, loadBlock_error_at_ea (Nat.lt_succ_of_le hk) hbad hgood]
    rfl

/-- Settles O47: a store that completed has its block in memory, and a load from the same I reads that block back. -/
theorem storeThenLoadRestoresRegisters : Obligations.StoreThenLoadRestoresRegisters := by
  intro x s u v h
  have hin := ea_lt_of_exec_storeRegisters_next h
  obtain ⟨t, ht, hstored, -⟩ := storeRegistersWritesBlock x s hin
  obtain rfl : u = t := Host.Outcome.next.inj (h.symm.trans ht)
  obtain ⟨w, hw, hloaded, -⟩ := loadRegistersReadsBlock x { u with v := v, i := s.i } hin
  refine ⟨⟨w, hw, fun r hr => (hloaded r hr).trans (hstored r hr)⟩, fun hq => ?_⟩
  obtain ⟨m, -, rfl⟩ := exec_storeRegisters_next h
  exact State.advanceIndex_i_of_off x hq

/-- Settles O40: with an overflow VF is written after I, and without one it is not written at all. -/
theorem addIndexSetsFlagOnlyOnOverflow : Obligations.AddIndexSetsFlagOnlyOnOverflow := by
  intro x s
  have hsum : (s.i + zextByte (s.reg x)).toNat = (s.i.toNat + (s.reg x).toNat) % 65536 := by
    rw [BitVec.toNat_add, toNat_zextByte]
  obtain ⟨t, ht⟩ : ∃ t, exec (.addIndex x) s = .next t := ⟨_, rfl⟩
  refine ⟨t, ht, ?_⟩
  obtain ⟨hover, rfl⟩ | ⟨hover, rfl⟩ := exec_addIndex_next ht
  · refine ⟨hsum, ?_, rfl, fun r hr => State.reg_setVF_of_ne _ _ hr⟩
    rw [State.reg_setVF_vf, if_pos (of_decide_eq_true hover)]
  · refine ⟨hsum, ?_, rfl, fun r _ => rfl⟩
    rw [State.reg_setI, if_neg (of_decide_eq_false hover)]

/-- Settles O41: the glyph address does not wrap. -/
theorem fontAddressOfLowNibble : Obligations.FontAddressOfLowNibble := fun x s =>
  ⟨_, exec_fontCharacterAddress x s, toNat_glyphAddress (s.reg x), rfl⟩

end Sys2Proof.Machine
end

section
/-! SUPPORT. The display instructions (R170-R173): no other instruction and no other part of a step changes a pixel, the
pixels a sprite's rows turn over are the sprite's own bits, and the obligations that follow from them. -/

namespace Sys2Proof.Machine

/-! ## Who changes the display (R173) -/

theorem exec_keeps_disp {i : Instr} {s t : State} (h : exec i s = .next t) (hi : ¬ writesDisplay i) :
    t.disp = s.disp := by
  cases i
  case clear => exact absurd (.inl rfl) hi
  case draw x y n => exact absurd (.inr ⟨x, y, n, rfl⟩) hi
  case ret =>
    obtain ⟨a, -, rfl⟩ := exec_ret_next h
    rfl
  case callSubroutine nnn =>
    obtain ⟨-, rfl⟩ := exec_callSubroutine_next h
    rfl
  case skipIfKeyPressed x =>
    obtain ⟨k, -, rfl⟩ := exec_skipIfKeyPressed_next h
    simp
  case skipIfKeyNotPressed x =>
    obtain ⟨k, -, rfl⟩ := exec_skipIfKeyNotPressed_next h
    simp
  case blockingKeyWait x =>
    obtain ⟨-, rfl⟩ | ⟨-, rfl⟩ := exec_blockingKeyWait_next h <;> rfl
  case addIndex x =>
    obtain ⟨-, rfl⟩ | ⟨-, rfl⟩ := exec_addIndex_next h <;> rfl
  case bcd x =>
    obtain ⟨m, -, rfl⟩ := exec_bcd_next h
    rfl
  case storeRegisters x =>
    obtain ⟨m, -, rfl⟩ := exec_storeRegisters_next h
    simp
  case loadRegisters x =>
    obtain ⟨bs, -, rfl⟩ := exec_loadRegisters_next h
    simp
  all_goals
    cases h
    simp

theorem changedOnlyByExec_disp : ChangedOnlyByExec State.disp := ⟨by simp, by simp, by simp, by simp⟩

/-- Settles O13: the display is changed by no part of a step but the instruction, and by no instruction but the two. -/
theorem onlyClearAndDrawChangeDisplay : Obligations.OnlyClearAndDrawChangeDisplay := by
  intro s t h hi px py
  have hdisp : t.disp = s.disp := changedOnlyByExec_disp.step_keeps h fun i _ _ hat _ hex =>
    exec_keeps_disp hex (hi i hat)
  rw [State.pixel, State.pixel, hdisp]

/-! ## Clear (R170) -/

theorem exec_clear (s : State) : exec .clear s = .next (s.setDisp (Vector.replicate 32 0#64)) := rfl

/-- Settles O48: 0x00E0 is Clear's word, and every row it writes is zero. -/
theorem clearTurnsEveryPixelOff : Obligations.ClearTurnsEveryPixelOff := by
  refine ⟨fun strict w => ?_, fun s => ⟨_, exec_clear s, pixel_replicate_zero, rfl⟩⟩
  simp [decodeWord_eq_ok_iff, encode, Instr.wellFormed]

/-! ## Draw (R171) -/

/-- Two states with the same pixels have the same display. -/
theorem State.disp_eq_of_pixel {s t : State} (h : ∀ px py, px < 64 → py < 32 → t.pixel px py = s.pixel px py) :
    t.disp = s.disp := Display.ext_pixel h

/-- Some lit pixel meets a 1-bit of the sprite, which turns it off (R171). -/
def State.spriteHits (s : State) (x0 y0 n : Nat) : Prop :=
  ∃ px py, px < 64 ∧ py < 32 ∧ s.pixel px py = true ∧ s.spriteBit x0 y0 n px py = true

/-- The rows drawn from I turn over exactly the sprite's pixels. -/
theorem rowsPixel_eq_spriteBit (s : State) (x0 y0 n : Nat) {px : Nat} (py : Nat) (hpx : px < 64) :
    rowsPixel s.mem (s.ea 0) x0 y0 n 0 px py = s.spriteBit x0 y0 n px py := by
  rw [rowsPixel, getLsbD_spriteRow _ _ _ hpx, ← Bool.and_assoc, ← Bool.decide_and, decide_eq_decide.mpr and_assoc]
  rfl

/-- Draw completes when every row it reads lies in memory. -/
theorem exec_draw_of_spriteInMemory (x : RegIx) {y : RegIx} {n : Nibble} {s : State} (h : s.spriteInMemory y n) :
    ∃ t, exec (.draw x y n) s = .next t := by
  obtain ⟨⟨d, hit⟩, hd⟩ := drawRows_isOk s.mem s.pc0 (s.ea 0) (s.drawColumn x) (s.drawRow y) s.disp false
    (rows := n.toNat) (r := 0) fun j _ hj hy => h j (by omega) hy
  refine ⟨(s.setDisp d).setVF (flagByte hit), ?_⟩
  rw [State.drawColumn, State.drawRow] at hd
  rw [exec, execDraw, hd]

section
variable {x y : RegIx} {n : Nibble} {s t : State}

/-- Draw changes the display and VF alone, X = F and Y = F included. -/
theorem exec_draw_frame (h : exec (.draw x y n) s = .next t) :
    t = { s with v := t.v, disp := t.disp } ∧ ∀ r, r ≠ vf → t.reg r = s.reg r := by
  obtain ⟨d, hit, -, rfl⟩ := exec_draw_next h
  exact ⟨rfl, fun r hr => State.reg_setVF_of_ne _ _ hr⟩

/-- All that a Draw which completes did: it read its rows in memory, turned over exactly the sprite's pixels, and left
in VF whether a lit one was among them. -/
theorem exec_draw_effect (h : exec (.draw x y n) s = .next t) :
    s.spriteInMemory y n ∧
    (∀ px py, px < 64 → py < 32 →
      t.pixel px py = (s.pixel px py ^^ s.spriteBit (s.drawColumn x) (s.drawRow y) n.toNat px py)) ∧
    (s.spriteHits (s.drawColumn x) (s.drawRow y) n.toNat → t.reg vf = 1#8) ∧
    (¬ s.spriteHits (s.drawColumn x) (s.drawRow y) n.toNat → t.reg vf = 0#8) := by
  obtain ⟨d, hit, hd, rfl⟩ := exec_draw_next h
  obtain ⟨hin, hpixels, hhit⟩ := drawRows_ok _ _ _ _ _ hd
  have hhits : hit = true ↔ s.spriteHits (s.drawColumn x) (s.drawRow y) n.toNat := by
    rw [hhit, or_iff_right Bool.false_ne_true]
    refine exists_congr fun px => exists_congr fun py => and_congr_right fun hpx => ?_
    rw [rowsPixel_eq_spriteBit s _ _ _ _ hpx]
    rfl
  refine ⟨fun r hr hy => hin r (Nat.zero_le r) (by omega) hy, fun px py hpx hpy => ?_, fun hs => ?_, fun hs => ?_⟩
  · rw [← rowsPixel_eq_spriteBit s _ _ _ _ hpx]
    exact hpixels px py hpy
  · rw [State.reg_setVF_vf, hhits.mpr hs]
    rfl
  · rw [State.reg_setVF_vf, Bool.eq_false_iff.mpr (mt hhits.mp hs)]
    rfl

/-- The sprite bits depend on I and memory alone, so a Draw leaves them. -/
theorem spriteBit_of_exec_draw (h : exec (.draw x y n) s = .next t) (x0 y0 m px py : Nat) :
    t.spriteBit x0 y0 m px py = s.spriteBit x0 y0 m px py := by
  obtain ⟨d, hit, -, rfl⟩ := exec_draw_next h
  rfl

/-- A Draw leaves its own start column when VX is not the VF it writes. -/
theorem drawColumn_of_exec_draw (h : exec (.draw x y n) s = .next t) (hx : x ≠ vf) :
    t.drawColumn x = s.drawColumn x := by
  obtain ⟨-, hregs⟩ := exec_draw_frame h
  rw [State.drawColumn, hregs x hx, State.drawColumn]

/-- A Draw leaves its own start row when VY is not the VF it writes. -/
theorem drawRow_of_exec_draw (h : exec (.draw x y n) s = .next t) (hy : y ≠ vf) : t.drawRow y = s.drawRow y := by
  obtain ⟨-, hregs⟩ := exec_draw_frame h
  rw [State.drawRow, hregs y hy, State.drawRow]

/-- After a Draw that completed, the same rows still lie in memory. -/
theorem spriteInMemory_of_exec_draw (h : exec (.draw x y n) s = .next t) (hy : y ≠ vf) : t.spriteInMemory y n := by
  intro r hr hrow
  rw [drawRow_of_exec_draw h hy] at hrow
  obtain ⟨hin, -⟩ := exec_draw_effect h
  obtain ⟨d, hit, -, rfl⟩ := exec_draw_next h
  exact hin r hr hrow

/-- What a Draw turned on from a dark display is lit under the sprite: the same sprite hits it. -/
theorem spriteHits_of_exec_draw (h : exec (.draw x y n) s = .next t) (hdark : ∀ px py, s.pixel px py = false)
    (hdisp : t.disp ≠ s.disp) : t.spriteHits (s.drawColumn x) (s.drawRow y) n.toNat := by
  obtain ⟨-, hpixels, -⟩ := exec_draw_effect h
  by_contra hno
  refine hdisp (State.disp_eq_of_pixel fun px py hpx hpy => ?_)
  have hbit : t.pixel px py = s.spriteBit (s.drawColumn x) (s.drawRow y) n.toNat px py := by
    rw [hpixels px py hpx hpy, hdark, Bool.false_xor]
  rw [hdark, Bool.eq_false_iff]
  intro hlit
  exact hno ⟨px, py, hpx, hpy, hlit, by rw [spriteBit_of_exec_draw h, ← hbit, hlit]⟩

end

/-- Settles O49: with its rows in memory Draw completes, and then its effect and its frame are known. -/
theorem drawXorsSpriteAndSetsCollision : Obligations.DrawXorsSpriteAndSetsCollision := by
  intro x y n s hin
  obtain ⟨t, ht⟩ := exec_draw_of_spriteInMemory x hin
  obtain ⟨-, hpixels, hset, hclear⟩ := exec_draw_effect ht
  refine ⟨t, ht, hpixels, hset, fun hnone => hclear ?_, exec_draw_frame ht⟩
  rintro ⟨px, py, hpx, hpy, hlit, hbit⟩
  rw [hnone px py hpx hpy hlit] at hbit
  exact Bool.false_ne_true hbit

/-- Settles O50: the rows are read from row 0 on, so the first bad one is where the blit faults. -/
theorem drawFaultsAtFirstBadRow : Obligations.DrawFaultsAtFirstBadRow := by
  intro x y n s r hr hrow hbad hgood
  have hfault := drawRows_error_at s.mem s.pc0 (s.ea 0) (s.drawColumn x) (s.drawRow y) (r := 0) s.disp false r hr
    (by omega) (by rwa [Nat.zero_add]) fun j _ hj => hgood j (by omega)
  rw [Nat.zero_add, s.ea_zero_add, State.drawColumn, State.drawRow] at hfault
  rw [exec, execDraw, hfault]
  rfl

/-- Settles O51: the second Draw has the first one's column, row and sprite, and XOR with the same bit twice gives each
pixel back. -/
theorem drawTwiceRestoresDisplay : Obligations.DrawTwiceRestoresDisplay := by
  intro x y n s u hx hy h
  obtain ⟨w, hw⟩ := exec_draw_of_spriteInMemory x (spriteInMemory_of_exec_draw h hy)
  obtain ⟨-, hfirst, -⟩ := exec_draw_effect h
  obtain ⟨-, hsecond, hset, -⟩ := exec_draw_effect hw
  rw [drawColumn_of_exec_draw h hx, drawRow_of_exec_draw h hy] at hsecond hset
  refine ⟨w, hw, State.disp_eq_of_pixel fun px py hpx hpy => ?_, fun hdark hdisp =>
    hset (spriteHits_of_exec_draw h hdark hdisp)⟩
  rw [hsecond px py hpx hpy, spriteBit_of_exec_draw h, hfirst px py hpx hpy, Bool.xor_assoc, Bool.xor_self,
    Bool.xor_false]

end Sys2Proof.Machine
end

section
/-! SUPPORT. The timer instructions (R180-R183) and the countdown that ends each step (R74, R211): what an instruction leaves
in DT and ST, one equation per timer instruction, and the obligations that follow from them. -/

namespace Sys2Proof.Machine

/-! ## Who writes a timer (R183) -/

/-- What an instruction can leave in DT and in ST: FX15 writes the one and FX18 the other. -/
inductive TimersAfter (s : State) : Instr → Byte → Byte → Prop where
  | kept (i : Instr) : TimersAfter s i s.dt s.st
  | delayWritten (x : RegIx) : TimersAfter s (.writeRegisterIntoDelay x) (s.reg x) s.st
  | soundWritten (x : RegIx) : TimersAfter s (.writeRegisterIntoSound x) s.dt (s.reg x)

theorem exec_timersAfter {i : Instr} {s t : State} (h : exec i s = .next t) : TimersAfter s i t.dt t.st := by
  have hkept (hdt : t.dt = s.dt) (hst : t.st = s.st) : TimersAfter s i t.dt t.st := by
    rw [hdt, hst]
    exact .kept i
  cases i
  case writeRegisterIntoDelay x =>
    cases h
    exact .delayWritten x
  case writeRegisterIntoSound x =>
    cases h
    exact .soundWritten x
  case ret =>
    obtain ⟨a, -, rfl⟩ := exec_ret_next h
    exact hkept rfl rfl
  case callSubroutine nnn =>
    obtain ⟨-, rfl⟩ := exec_callSubroutine_next h
    exact hkept rfl rfl
  case draw x y n =>
    obtain ⟨d, hit, -, rfl⟩ := exec_draw_next h
    exact hkept rfl rfl
  case skipIfKeyPressed x =>
    obtain ⟨k, -, rfl⟩ := exec_skipIfKeyPressed_next h
    exact hkept (by simp) (by simp)
  case skipIfKeyNotPressed x =>
    obtain ⟨k, -, rfl⟩ := exec_skipIfKeyNotPressed_next h
    exact hkept (by simp) (by simp)
  case blockingKeyWait x =>
    obtain ⟨-, rfl⟩ | ⟨-, rfl⟩ := exec_blockingKeyWait_next h <;> exact hkept rfl rfl
  case addIndex x =>
    obtain ⟨-, rfl⟩ | ⟨-, rfl⟩ := exec_addIndex_next h <;> exact hkept rfl rfl
  case bcd x =>
    obtain ⟨m, -, rfl⟩ := exec_bcd_next h
    exact hkept rfl rfl
  case storeRegisters x =>
    obtain ⟨m, -, rfl⟩ := exec_storeRegisters_next h
    exact hkept (by simp) (by simp)
  case loadRegisters x =>
    obtain ⟨bs, -, rfl⟩ := exec_loadRegisters_next h
    exact hkept (by simp) (by simp)
  all_goals
    cases h
    exact hkept (by simp) (by simp)

theorem TimersAfter.dt_eq_of_ne {s : State} {i : Instr} {dt st : Byte} (h : TimersAfter s i dt st)
    (hi : ∀ x, i ≠ .writeRegisterIntoDelay x) : dt = s.dt := by
  cases h with
  | kept => rfl
  | delayWritten x => exact absurd rfl (hi x)
  | soundWritten => rfl

theorem TimersAfter.st_eq_of_ne {s : State} {i : Instr} {dt st : Byte} (h : TimersAfter s i dt st)
    (hi : ∀ x, i ≠ .writeRegisterIntoSound x) : st = s.st := by
  cases h with
  | kept => rfl
  | delayWritten => rfl
  | soundWritten x => exact absurd rfl (hi x)

/-- Settles O12: an unknown word leaves both timers to the countdown, and so does an instruction each timer that it does
not write. -/
theorem timersCountDownOncePerStep : Obligations.TimersCountDownOncePerStep := by
  intro s t hr h
  obtain ⟨hstop, -⟩ | ⟨-, w, -, ⟨-, -, rfl⟩ | ⟨i, u, hi, -, hu, rfl⟩⟩ := step_cases h
  · exact absurd hr hstop
  · simp [toNat_countDown]
  · rw [hi, State.timerTick_dt, State.timerTick_st, toNat_countDown, toNat_countDown]
    refine ⟨fun hdelay => ?_, fun hsound => ?_⟩
    · rw [(exec_timersAfter hu).dt_eq_of_ne fun x e => hdelay x (congrArg some e), State.fetched_dt,
        State.sampleInputs_dt]
    · rw [(exec_timersAfter hu).st_eq_of_ne fun x e => hsound x (congrArg some e), State.fetched_st,
        State.sampleInputs_st]

/-! ## The instructions (R180-R182) -/

theorem exec_readDelayIntoRegister (x : RegIx) (s : State) :
    exec (.readDelayIntoRegister x) s = .next (s.setReg x s.dt) := rfl

theorem exec_writeRegisterIntoDelay (x : RegIx) (s : State) :
    exec (.writeRegisterIntoDelay x) s = .next (s.setDT (s.reg x)) := rfl

theorem exec_writeRegisterIntoSound (x : RegIx) (s : State) :
    exec (.writeRegisterIntoSound x) s = .next (s.setST (s.reg x)) := rfl

/-- Settles O52: each instruction is one write, of VX, DT or ST. -/
theorem timerTransfers : Obligations.TimerTransfers := fun x s =>
  ⟨⟨_, exec_readDelayIntoRegister x s, s.reg_setReg_same x s.dt, changesOnlyRegs_setReg s x s.dt⟩,
    ⟨_, exec_writeRegisterIntoDelay x s, rfl⟩, ⟨_, exec_writeRegisterIntoSound x s, rfl⟩⟩

/-! ## The countdown after them (R74, R211) -/

/-- A running machine at an instruction that completes from every state, in `f` of it, ends its step in the countdown of
that. -/
theorem step_of_exec_eq_next {s : State} {i : Instr} {f : State → State} (hr : s.status = .running)
    (hi : s.instrAtPC = some i) (hexec : ∀ u, exec i u = .next (f u)) :
    ∃ w, step s = .next (f (s.sampleInputs.fetched w)).timerTick := by
  obtain ⟨w, -, hstep⟩ := step_of_instrAtPC hr hi
  rw [hexec] at hstep
  exact ⟨w, hstep⟩

/-- Settles O53: the step is the instruction's one write, then the countdown, which sees what was written. -/
theorem timerTransfersWithCountdown : Obligations.TimerTransfersWithCountdown := by
  intro x s hr
  refine ⟨fun hi => ?_, fun hi => ?_, fun hi => ?_⟩
  · obtain ⟨w, hstep⟩ := step_of_exec_eq_next hr hi (exec_readDelayIntoRegister x)
    exact ⟨_, hstep, by simp, by simp [toNat_countDown]⟩
  · obtain ⟨w, hstep⟩ := step_of_exec_eq_next hr hi (exec_writeRegisterIntoDelay x)
    exact ⟨_, hstep, by simp [toNat_countDown]⟩
  · obtain ⟨w, hstep⟩ := step_of_exec_eq_next hr hi (exec_writeRegisterIntoSound x)
    exact ⟨_, hstep, by simp [toNat_countDown], by simp [bne, beq_eq_decide]⟩

end Sys2Proof.Machine
end

section
/-! SUPPORT. The input instructions (R190-R194): the key a V register selects, one equation per instruction and outcome,
and the obligations that follow from them. -/

namespace Sys2Proof.Machine

/-! ## The key index (R193) -/

/-- The key is VX modulo 16 wherever the policy gives one: from VX = 0x10 on that is the masked value. -/
theorem State.keyIndex_eq_ok {s : State} {x : RegIx}
    (h : (s.reg x).toNat ≤ 0xF ∨ s.cfg.keyIndexPolicy = .maskLowNibble) :
    s.keyIndex x = .ok ((s.reg x).setWidth 4) := by
  unfold State.keyIndex
  split
  · rfl
  · next hhigh => rw [h.resolve_left hhigh]

theorem State.keyIndex_eq_error {s : State} {x : RegIx} (hhigh : 0xF < (s.reg x).toNat)
    (hpolicy : s.cfg.keyIndexPolicy = .fatal) : s.keyIndex x = .error (.keyIndexOutOfRange (s.reg x) s.pc0) := by
  rw [State.keyIndex, if_neg (Nat.not_le.mpr hhigh), hpolicy]

theorem State.keyDown_setWidth (s : State) (b : Byte) : s.keyDown (b.setWidth 4) = s.keys.getLsbD (b.toNat % 16) := by
  rw [State.keyDown, BitVec.toNat_setWidth]

/-! ## Skips on a key (R190, R191) -/

theorem exec_skipIfKeyPressed_of_ok {s : State} {x : RegIx} {k : BitVec 4} (h : s.keyIndex x = .ok k) :
    exec (.skipIfKeyPressed x) s = .next (s.skipIf (s.keyDown k)) := by
  rw [exec, execSkipIfKeyPressed, h]

theorem exec_skipIfKeyNotPressed_of_ok {s : State} {x : RegIx} {k : BitVec 4} (h : s.keyIndex x = .ok k) :
    exec (.skipIfKeyNotPressed x) s = .next (s.skipIf (!s.keyDown k)) := by
  rw [exec, execSkipIfKeyNotPressed, h]

theorem exec_skipIfKeyPressed_of_error {s : State} {x : RegIx} {f : Fault} (h : s.keyIndex x = .error f) :
    exec (.skipIfKeyPressed x) s = .fault f := by
  rw [exec, execSkipIfKeyPressed, h]
  rfl

theorem exec_skipIfKeyNotPressed_of_error {s : State} {x : RegIx} {f : Fault} (h : s.keyIndex x = .error f) :
    exec (.skipIfKeyNotPressed x) s = .fault f := by
  rw [exec, execSkipIfKeyNotPressed, h]
  rfl

/-- Settles O54: both instructions test the same bit of the sample, and exactly one of them skips. -/
theorem keySkipsReadSample : Obligations.KeySkipsReadSample := by
  intro x s h
  have hindex := State.keyIndex_eq_ok h
  rw [exec_skipIfKeyPressed_of_ok hindex, exec_skipIfKeyNotPressed_of_ok hindex, State.keyDown_setWidth]
  refine ⟨fun hdown => ?_, fun hup => ?_⟩
  · rw [hdown]
    exact ⟨congrArg _ s.skipIf_true, congrArg _ s.skipIf_false⟩
  · rw [hup]
    exact ⟨congrArg _ s.skipIf_false, congrArg _ s.skipIf_true⟩

/-- Settles O55: there is no key index, and both instructions pass its fault on. -/
theorem keyIndexOutOfRangeIsFatal : Obligations.KeyIndexOutOfRangeIsFatal := fun _ _ hhigh hpolicy =>
  have hindex := State.keyIndex_eq_error hhigh hpolicy
  ⟨exec_skipIfKeyPressed_of_error hindex, exec_skipIfKeyNotPressed_of_error hindex⟩

/-! ## The blocking key wait (R192) -/

theorem exec_blockingKeyWait_of_no_key {s : State} (x : RegIx) (h : s.keys = 0#16) :
    exec (.blockingKeyWait x) s = .next (s.setPC (s.pc - 2#16)) := by
  have hnone : ¬ s.anyKey = true := fun hany => s.anyKey_eq_true_iff.mp hany h
  rw [exec, execBlockingKeyWait, if_neg hnone]

theorem exec_blockingKeyWait_of_key {s : State} (x : RegIx) (h : s.keys ≠ 0#16) :
    exec (.blockingKeyWait x) s = .next (s.setReg x ((selectKey s.keys).setWidth 8)) := by
  rw [exec, execBlockingKeyWait, if_pos (s.anyKey_eq_true_iff.mpr h)]

/-- The latched byte is the number of the selected key (R192). -/
theorem toNat_reg_latched (s : State) (x : RegIx) (k : BitVec 4) :
    ((s.setReg x (k.setWidth 8)).reg x).toNat = k.toNat := by
  rw [State.reg_setReg_same, BitVec.toNat_setWidth_of_le (by decide)]

/-- The keys of a step whose sample the host has fixed (R194; log 1), as its instruction sees them. -/
theorem keys_fetched_of_cons {s : State} {inp : StepInput} {rest : List StepInput} (h : s.inputs = inp :: rest)
    (w : Word) : (s.sampleInputs.fetched w).keys = inp.keys := by
  rw [State.fetched_keys, State.sampleInputs_of_cons h]

/-- Settles O56: the wait rewinds over the 2 that the fetch added to PC, or latches the selected key, which is down; the
step counts down after either. -/
theorem keyWaitRewindsOrLatches : Obligations.KeyWaitRewindsOrLatches := by
  intro x s
  refine ⟨exec_blockingKeyWait_of_no_key x, fun hkey => ?_, fun inp rest hr hi hin hnone => ?_,
    fun inp rest hr hi hin hkey => ?_⟩
  · exact ⟨_, (selectKey s.keys).toNat, exec_blockingKeyWait_of_key x hkey, (selectKey s.keys).isLt,
      selectKey_down s.keys hkey, toNat_reg_latched s x _, changesOnlyRegs_setReg s x _⟩
  · obtain ⟨w, -, hstep⟩ := step_of_instrAtPC hr hi
    rw [exec_blockingKeyWait_of_no_key x ((keys_fetched_of_cons hin w).trans hnone)] at hstep
    exact ⟨_, hstep, by simp, by simp, by simp [toNat_countDown], by simp [toNat_countDown]⟩
  · obtain ⟨w, -, hstep⟩ := step_of_instrAtPC hr hi
    rw [exec_blockingKeyWait_of_key x (by rwa [keys_fetched_of_cons hin]), keys_fetched_of_cons hin] at hstep
    exact ⟨_, (selectKey inp.keys).toNat, hstep, by simp, (selectKey inp.keys).isLt, selectKey_down inp.keys hkey,
      toNat_reg_latched _ x _, by simp [toNat_countDown], by simp [toNat_countDown]⟩

end Sys2Proof.Machine
end

section
/-! SUPPORT. The conditions of R203: which instruction raises which fatal condition and when (R205-R209), the step that reports
an unknown word (R201), and the construction that ends at once (R242). -/

namespace Sys2Proof.Machine

/-! ## Who raises what (R205-R208) -/

/-- The instructions that access memory at I (R205); the fetch accesses it at PC. -/
def accessesMemory (i : Instr) : Prop :=
  (∃ x y n, i = .draw x y n) ∨ ∃ x, i = .bcd x ∨ i = .storeRegisters x ∨ i = .loadRegisters x

/-- R203's table, read as what an instruction can raise in a state: the columns "raised by" and "info recorded". -/
inductive Raises (s : State) : Instr → Fault → Prop where
  | addressOutOfRange {i : Instr} {a : Nat} (hi : accessesMemory i) (ha : memSize ≤ a) :
      Raises s i (.addressOutOfRange a s.pc0)
  | stackUnderflow (h : s.stack = []) : Raises s .ret (.stackUnderflow s.pc0)
  | stackOverflow (nnn : Imm12) (h : s.cfg.stackLimit = some s.stack.length) :
      Raises s (.callSubroutine nnn) (.stackOverflow s.pc0)
  | keyIndexOutOfRange {i : Instr} {x : RegIx} (hi : i = .skipIfKeyPressed x ∨ i = .skipIfKeyNotPressed x)
      (hx : 0xF < (s.reg x).toNat) (hpolicy : s.cfg.keyIndexPolicy = .fatal) :
      Raises s i (.keyIndexOutOfRange (s.reg x) s.pc0)

/-- What an instruction can answer: a next state, or a fatal condition that it raises; never a refusal. -/
inductive Answers (s : State) (i : Instr) : Host.Outcome State Fault Refusal → Prop where
  | next (t : State) : Answers s i (.next t)
  | fault {f : Fault} (h : Raises s i f) : Answers s i (.fault f)

/-- There is no key index only for VX > 0xF under policy fatal (R193, R208). -/
theorem State.keyIndex_error {s : State} {x : RegIx} {f : Fault} (h : s.keyIndex x = .error f) :
    0xF < (s.reg x).toNat ∧ s.cfg.keyIndexPolicy = .fatal ∧ f = .keyIndexOutOfRange (s.reg x) s.pc0 := by
  unfold State.keyIndex at h
  split at h
  · cases h
  · next hx =>
    split at h
    · next hpolicy => cases h; exact ⟨Nat.lt_of_not_le hx, hpolicy, rfl⟩
    · cases h

theorem answers_of_addressOutOfRange {s : State} {i : Instr} {f : Fault} (hi : accessesMemory i)
    (h : ∃ a, memSize ≤ a ∧ f = .addressOutOfRange a s.pc0) : Answers s i (raiseFatal f) := by
  obtain ⟨a, ha, rfl⟩ := h
  exact .fault (.addressOutOfRange hi ha)

theorem answers_of_keyIndex_error {s : State} {i : Instr} {x : RegIx} {f : Fault}
    (hi : i = .skipIfKeyPressed x ∨ i = .skipIfKeyNotPressed x) (h : s.keyIndex x = .error f) :
    Answers s i (raiseFatal f) := by
  obtain ⟨hx, hpolicy, rfl⟩ := State.keyIndex_error h
  exact .fault (.keyIndexOutOfRange hi hx hpolicy)

/-- All that an instruction can answer. Every arm but those named here is one next state by definition. -/
theorem exec_answers (i : Instr) (s : State) : Answers s i (exec i s) := by
  cases i
  case ret =>
    rw [exec, execReturn]
    split
    · next hnone => exact .fault (.stackUnderflow (List.getLast?_eq_none_iff.mp hnone))
    · exact .next _
  case callSubroutine nnn =>
    rw [exec, execCallSubroutine]
    split
    · next hlimit => exact .fault (.stackOverflow nnn hlimit)
    · exact .next _
  case draw x y n =>
    rw [exec, execDraw]
    split
    · next hf => exact answers_of_addressOutOfRange (.inl ⟨x, y, n, rfl⟩) (drawRows_error _ _ _ _ _ hf)
    · exact .next _
  case bcd x =>
    rw [exec, execBcd]
    split
    · next hf => exact answers_of_addressOutOfRange (.inr ⟨x, .inl rfl⟩) (storeBlock_error _ _ hf)
    · exact .next _
  case storeRegisters x =>
    rw [exec, execStoreRegisters]
    split
    · next hf => exact answers_of_addressOutOfRange (.inr ⟨x, .inr (.inl rfl)⟩) (storeBlock_error _ _ hf)
    · exact .next _
  case loadRegisters x =>
    rw [exec, execLoadRegisters]
    split
    · next hf => exact answers_of_addressOutOfRange (.inr ⟨x, .inr (.inr rfl)⟩) (loadBlock_error _ _ hf)
    · exact .next _
  case skipIfKeyPressed x =>
    rw [exec, execSkipIfKeyPressed]
    split
    · next hf => exact answers_of_keyIndex_error (.inl rfl) hf
    · exact .next _
  case skipIfKeyNotPressed x =>
    rw [exec, execSkipIfKeyNotPressed]
    split
    · next hf => exact answers_of_keyIndex_error (.inr rfl) hf
    · exact .next _
  all_goals exact .next _

theorem exec_ne_refused (i : Instr) (s : State) (r : Refusal) : exec i s ≠ .refused r := by
  intro h
  have hanswers := exec_answers i s
  rw [h] at hanswers
  cases hanswers

theorem raises_of_exec_fault {i : Instr} {s : State} {f : Fault} (h : exec i s = .fault f) : Raises s i f := by
  have hanswers := exec_answers i s
  rw [h] at hanswers
  cases hanswers with
  | fault hraises => exact hraises

/-- Settles O19: an instruction raises only what R203's table gives it, and the table has each kind's code. -/
theorem fatalConditionsComeOnlyFromTheirRaisers : Obligations.FatalConditionsComeOnlyFromTheirRaisers := by
  intro i s
  refine ⟨exec_ne_refused i s, fun a p h => ?_, fun p h => ?_, fun p h => ?_, fun b p h => ?_, fun n h => ?_,
    fun f _ => ?_⟩
  · cases raises_of_exec_fault h with
    | addressOutOfRange hi ha => exact ⟨ha, rfl, hi⟩
  · cases raises_of_exec_fault h with
    | stackUnderflow hempty => exact ⟨rfl, hempty, rfl⟩
  · cases raises_of_exec_fault h with
    | stackOverflow nnn hlimit => exact ⟨⟨nnn, rfl⟩, hlimit, rfl⟩
  · cases raises_of_exec_fault h with
    | keyIndexOutOfRange hi hx hpolicy => exact ⟨rfl, hx, hpolicy, _, hi, rfl⟩
  · cases raises_of_exec_fault h
  · cases f <;> exact ⟨rfl, rfl⟩

/-! ## The unknown word (R201) -/

/-- A running machine whose word at PC is no instruction reports it and counts down (R74, R201). -/
theorem step_of_unknown_word {s : State} {w : Word} {e : DecodeReject} (hr : s.status = .running)
    (hw : s.wordAtPC = some w) (hd : decodeWord s.cfg.strict59 w = .error e) :
    step s = .next ((s.sampleInputs.fetched w).reportUnknown w s.pc).timerTick := by
  rw [step_of_wordAtPC hr hw, dispatchWord_unknown (e := e) (by simpa using hd), State.sampleInputs_pc]
  rfl

/-- Report and countdown leave the inputs the step took as they are. -/
theorem inputsTaken_reportUnknown_timerTick {s u : State} (h : s.inputsTaken u) (w p : Word) :
    s.inputsTaken (u.reportUnknown w p).timerTick := h

/-- Settles O8: of the parts of the step, the fetch sets PC and diag_word, the report is the report, and the countdown sets
the timers and the pulse. -/
theorem unknownWordIsReportedNoOp : Obligations.UnknownWordIsReportedNoOp := by
  intro s w hr hw ⟨e, hd⟩
  have htaken := inputsTaken_reportUnknown_timerTick (inputsTaken_fetched (inputsTaken_sampleInputs s) w) w s.pc
  refine ⟨_, _, step_of_unknown_word hr hw hd, rfl, rfl, rfl, rfl, rfl, by simp, htaken, ?_⟩
  simp [hr, toNat_countDown, bne, beq_eq_decide]

/-! ## A ROM that is too large (R209, R242) -/

theorem construct_status_of_oversized (cfg : Config) (initV : Vector Byte 16) (initI : Word) {rom : List Byte}
    (h : romMax < rom.length) : (construct cfg initV initI rom).status = .fatal (.romTooLarge rom.length) := by
  rw [construct, if_pos h]
  rfl

/-- Settles O58: the construction ends in status Fatal, and a machine that is not running takes no step. -/
theorem oversizedRomIsFatalAtReset : Obligations.OversizedRomIsFatalAtReset := by
  intro cfg initV initI rom h
  have hfatal := construct_status_of_oversized cfg initV initI h
  exact ⟨hfatal, step_of_not_running (by simp [hfatal])⟩

end Sys2Proof.Machine
end

section
/-! SUPPORT. The machine that reset constructs (R240-R243): its register state, its memory and its canonical form, for every
cfg, INIT_V, INIT_I and ROM. -/

namespace Sys2Proof.Machine

/-- PROG_BASE as a numeral, for arithmetic (R7). -/
theorem progBase_eq : progBase = 0x200 := rfl

section Construct
variable (cfg : Config) (initV : Vector Byte 16) (initI : Word) (rom : List Byte)

/-! ## What construction sets -/

/-- Construction sets cfg, V, I, memory and status; everything else is as `State.reset` has it (R243). -/
theorem construct_eq_reset_with : construct cfg initV initI rom =
    { State.reset with
      cfg := cfg, v := initV, i := initI
      mem := (construct cfg initV initI rom).mem, status := (construct cfg initV initI rom).status } := by
  unfold construct
  split <;> rfl

@[simp] theorem construct_v : (construct cfg initV initI rom).v = initV :=
  congrArg State.v (construct_eq_reset_with ..)
@[simp] theorem construct_i : (construct cfg initV initI rom).i = initI :=
  congrArg State.i (construct_eq_reset_with ..)
@[simp] theorem construct_pc : (construct cfg initV initI rom).pc = 0x200#16 :=
  congrArg State.pc (construct_eq_reset_with ..)
@[simp] theorem construct_stack : (construct cfg initV initI rom).stack = [] :=
  congrArg State.stack (construct_eq_reset_with ..)
@[simp] theorem construct_dt : (construct cfg initV initI rom).dt = 0#8 :=
  congrArg State.dt (construct_eq_reset_with ..)
@[simp] theorem construct_st : (construct cfg initV initI rom).st = 0#8 :=
  congrArg State.st (construct_eq_reset_with ..)
@[simp] theorem construct_disp : (construct cfg initV initI rom).disp = Vector.replicate 32 0#64 :=
  congrArg State.disp (construct_eq_reset_with ..)
@[simp] theorem construct_cfg : (construct cfg initV initI rom).cfg = cfg :=
  congrArg State.cfg (construct_eq_reset_with ..)
@[simp] theorem construct_soundPulse : (construct cfg initV initI rom).soundPulse = false :=
  congrArg State.soundPulse (construct_eq_reset_with ..)
@[simp] theorem construct_unknownReport : (construct cfg initV initI rom).unknownReport = none :=
  congrArg State.unknownReport (construct_eq_reset_with ..)

@[simp] theorem pixel_construct (px py : Nat) : (construct cfg initV initI rom).pixel px py = false := by
  rw [State.pixel, construct_disp, pixel_replicate_zero]

variable {rom}

theorem construct_status_of_fits (h : rom.length ≤ romMax) :
    (construct cfg initV initI rom).status = .running := by
  rw [construct, if_neg (Nat.not_lt_of_le h)]
  rfl

/-! ## The memory it leaves (R241, R242) -/

theorem construct_mem_of_fits (h : rom.length ≤ romMax) : (construct cfg initV initI rom).mem =
    Memory.writeList (Memory.writeList [] fontBase cfg.font.toList) progBase rom := by
  rw [construct, if_neg (Nat.not_lt_of_le h)]
  rfl

theorem construct_mem_of_oversized (h : romMax < rom.length) : (construct cfg initV initI rom).mem =
    Memory.writeList [] fontBase cfg.font.toList := by
  rw [construct, if_pos h]
  rfl

end Construct

theorem resetByte_of_not_font {a : Nat} (h : ¬ (0x050 ≤ a ∧ a < 0x0A0)) : resetByte a = 0#8 := if_neg h

/-- Settles O59: the ROM is written over the font, whose region ends below it, and the font over the reset contents, which
are 0 outside that region. -/
theorem memoryAfterReset : Obligations.MemoryAfterReset := by
  intro cfg initV initI rom hrom a _
  rw [State.peek, construct_mem_of_fits cfg initV initI hrom, Memory.read_writeList, Memory.read_writeList,
    Vector.length_toList, Memory.read_nil, progBase_eq]
  by_cases hfont : 0x050 ≤ a ∧ a < 0x0A0
  · rw [if_pos hfont, if_neg (by omega), if_pos hfont]
  · rw [if_neg hfont, if_neg hfont, resetByte_of_not_font hfont]

/-! ## The invariants at reset -/

theorem wf_fontMemory (font : Vector Byte 80) : Memory.wf (Memory.writeList [] fontBase font.toList) :=
  Memory.wf_writeList _ Memory.wf_nil (by rw [Vector.length_toList]; decide)

theorem construct_memoryCanonical (cfg : Config) (initV : Vector Byte 16) (initI : Word) (rom : List Byte) :
    (construct cfg initV initI rom).memoryCanonical := by
  rw [State.memoryCanonical]
  by_cases hrom : rom.length ≤ romMax
  · rw [construct_mem_of_fits _ _ _ hrom]
    exact Memory.wf_writeList rom (wf_fontMemory cfg.font) (Nat.add_le_add_left hrom progBase)
  · rw [construct_mem_of_oversized _ _ _ (Nat.lt_of_not_le hrom)]
    exact wf_fontMemory cfg.font

/-- PC is 0x200, and an empty stack is within every limit. -/
theorem construct_controlInRange (cfg : Config) (initV : Vector Byte 16) (initI : Word) (rom : List Byte) :
    (construct cfg initV initI rom).controlInRange := by
  simp [State.controlInRange_iff]

/-- Settles O23: the font and a ROM that fits lie in the 4096 bytes, and a ROM that does not fit is not written. -/
theorem constructionMeetsInvariants : Obligations.ConstructionMeetsInvariants := fun cfg initV initI rom =>
  ⟨construct_memoryCanonical cfg initV initI rom, construct_controlInRange cfg initV initI rom⟩

/-! ## The register state (R243) -/

/-- Settles O57: V, I and cfg are the ones given, every other register is as in `State.reset`, and the status follows from
the ROM's length. -/
theorem registerStateAfterReset : Obligations.RegisterStateAfterReset := by
  rintro cfg initV initI rom s rfl
  exact ⟨construct_pc .., construct_stack .., construct_dt .., construct_st .., pixel_construct cfg initV initI rom,
    construct_v .., construct_i .., construct_cfg .., construct_soundPulse .., construct_unknownReport ..,
    construct_status_of_fits cfg initV initI⟩

/-! ## The reset with the model's own values (logs 3-6) -/

/-- Writing what an unlisted address reads as leaves the empty list empty (log 8). -/
theorem Memory.writeList_nil_resetByte (n : Nat) : ∀ a : Nat,
    Memory.writeList [] a ((List.range' a n).map resetByte) = [] := by
  induction n with
  | zero => intro a; rfl
  | succ n ih =>
    intro a
    rw [List.range'_succ, List.map_cons, Memory.writeList, Memory.write, if_pos rfl]
    exact ih (a + 1)

theorem defaultFontBytes_eq_resetBytes :
    defaultFontBytes = (List.range' fontBase fontSize).map resetByte := by
  decide

theorem construct_default_mem (initV : Vector Byte 16) (initI : Word) :
    (construct defaultConfig initV initI []).mem = [] := by
  have hfont : defaultConfig.font.toList = (List.range' fontBase fontSize).map resetByte :=
    defaultFontBytes_eq_resetBytes
  rw [construct_mem_of_fits _ _ _ (by decide), Memory.writeList, hfont, Memory.writeList_nil_resetByte]

/-- Settles O60: the default font is the reset contents of its region, and there is no ROM to write. -/
theorem resetIsDefaultConstruction : Obligations.ResetIsDefaultConstruction := by
  rw [Obligations.ResetIsDefaultConstruction, construct_eq_reset_with, construct_default_mem,
    construct_status_of_fits _ _ _ (by decide)]
  rfl

/-- Settles O22: the state after reset is a constructed machine. -/
theorem resetMeetsInvariants : Obligations.ResetMeetsInvariants := by
  rw [Obligations.ResetMeetsInvariants, ← resetIsDefaultConstruction]
  exact constructionMeetsInvariants ..

end Sys2Proof.Machine
end
